-- ==== Sys2Proof/Word.lean ====
section
/-! DEFINITION. The units the spec sends and counts in: bytes of port frames (12, section 12.1) and the 16-bit words of the
field bus (00_scope, "Words and byte order"), and the saturating count of the scope's conventions. -/

namespace Sys2Proof

/-- A byte of a port frame or of a field frame. -/
abbrev Byte := BitVec 8

/-- A 16-bit word of the field bus; sweep numbers, tags and snapshot sequences have this width too. -/
abbrev Word := BitVec 16

/-- One more, but at most `limit`: a counter the manual calls saturating (00_scope, Conventions). -/
def satInc (limit n : Nat) : Nat := min limit (n + 1)

end Sys2Proof
end

