-- ==== Sys2Proof/Config.lean ====
section
/-! DEFINITION. What is fixed for the part (00_scope, "Numbers used throughout") and the values the spec leaves free: an
`opaque` constant has no body, so no proof can learn its value. -/

namespace Sys2Proof.Config

/-- Part identifier and revision that STATUS returns (R174). -/
def partId : Word := 0x4410
def revision : Byte := 0

/-- Length bounds of a request frame's length byte (R165, R166). -/
def minFrameLength : Nat := 3
def maxFrameLength : Nat := 63

/-- Released bit periods of the preamble (R48). -/
def preambleBits : Nat := 8
/-- Bit periods of the reply window (R49). -/
def windowBits : Nat := 24
/-- Bit periods of the broadcast guard (R53). -/
def guardBits : Nat := 24
/-- Driven bit periods that make a line fault (R60). -/
def lineFaultBits : Nat := 64
/-- Released bit periods that end a line fault (R61). -/
def lineRecoveryBits : Nat := 256

/-- Age at and above which a chain ranks 4 (R92). -/
def agedAt : Nat := 8
/-- No-reply run at which a target becomes SILENT (R58). -/
def silentRun : Nat := 4
/-- Turnovers between polls of a SILENT target (R101). -/
def silentRetry : Nat := 16
/-- Failure run at which a snapshot turns stale (R105). -/
def staleRun : Nat := 3
/-- Turnovers a proposal may stay pending (R147). -/
def proposalWindow : Nat := 64
/-- Handles one CHAIN QUERY returns at most (R41). -/
def queryHandles : Nat := 24

/-- FREE VALUE (log 6). How many idle 0x00 bytes, 0 to 8, stand before the start byte of the n-th response: "a number that
the part may choose afresh for each response within that range" (R167). -/
opaque idleBytes : Nat → Fin 9

/-- FREE VALUE (log 7). Whether a mark set by the end of an exchange that a deferred turnover follows in the same event
becomes pending at that turnover (R63, R82) or at the following one (R84, R136): the rules disagree. -/
opaque endMarksPendNow : Bool

end Sys2Proof.Config
end

