-- ==== Sys2Proof/Syntax.lean ====
section
/-! DEFINITION. The commands of the block: one constructor of `Instr` for each row of spec/opcode_table.json. -/

namespace Sys2Proof

/-- A master port, P0 to P3 (00_scope). -/
abbrev Port := Fin 4

/-- A chain id of the part: four times the port number plus the chain number (02, section 2.1). -/
abbrev ChainIx := Fin 16

/-- A slot number of the Transfer Store (R2). -/
abbrev SlotIx := Fin 128

/-- A Poll Plan index (R97). -/
abbrev PollIx := Fin 48

/-- A Reservation Table index (R116). -/
abbrev ResvIx := Fin 8

/-- What the engine finds in RECEIVING that gives a held outcome (R50, checks 1 to 3): a delimiter bit that does not match,
or a count byte whose high bits are not 0 or whose count is above the expected one. -/
inductive HeldCause where
  | badDelimiter
  | countByte (b : Byte)
  deriving DecidableEq, Repr

/-- An accepted reply frame after its delimiter (R45, section 12.4): header byte, count byte, words, and the CRC-16 received. -/
structure ReplyFrame where
  header : Byte
  count : Byte
  words : List Word
  crc : Word
  deriving DecidableEq, Repr

/-- The commands. A request's operands are the port, the sequence byte and the body of a completed request frame whose length
byte is in range and whose CRC-8 is right (R165, R166); the event is the frame's last bit. -/
inductive Instr where
  /-- POWER_ON (R3): release of RESET. -/
  | powerOn
  /-- SEL_ASSERT (R164). -/
  | selAssert (p : Port)
  /-- SEL_RELEASE (R168). -/
  | selRelease (p : Port)
  /-- PRST_ASSERT (R172). -/
  | prstAssert (p : Port)
  /-- PRST_DEASSERT (R172). -/
  | prstDeassert (p : Port)
  /-- RESPONSE_SENT (R167). -/
  | responseSent (p : Port)
  /-- FRAME (R166, check 1): a completed frame, as its bytes, that fails the check. -/
  | frame (p : Port) (bytes : List Byte)
  /-- UNKNOWN (R166, check 2): a good frame whose request code is not in the catalogue. -/
  | unknown (p : Port) (code seq : Byte) (body : List Byte)
  /-- ATTACH (R170). -/
  | attach (p : Port) (seq : Byte) (body : List Byte)
  /-- DETACH (R171). -/
  | detach (p : Port) (seq : Byte) (body : List Byte)
  /-- STATUS (R174). -/
  | status (p : Port) (seq : Byte) (body : List Byte)
  /-- POST (R9). -/
  | post (p : Port) (seq : Byte) (body : List Byte)
  /-- PEEK (R11). -/
  | peek (p : Port) (seq : Byte) (body : List Byte)
  /-- CANCEL (R12). -/
  | cancel (p : Port) (seq : Byte) (body : List Byte)
  /-- CHAIN SET (R36). -/
  | chainSet (p : Port) (seq : Byte) (body : List Byte)
  /-- CHAIN PAUSE (R37). -/
  | chainPause (p : Port) (seq : Byte) (body : List Byte)
  /-- CHAIN GO (R37). -/
  | chainGo (p : Port) (seq : Byte) (body : List Byte)
  /-- CHAIN RETRY (R38). -/
  | chainRetry (p : Port) (seq : Byte) (body : List Byte)
  /-- CHAIN DROP (R39). -/
  | chainDrop (p : Port) (seq : Byte) (body : List Byte)
  /-- CHAIN FLUSH (R40). -/
  | chainFlush (p : Port) (seq : Byte) (body : List Byte)
  /-- CHAIN QUERY (R41). -/
  | chainQuery (p : Port) (seq : Byte) (body : List Byte)
  /-- TARGET QUERY (R59). -/
  | targetQuery (p : Port) (seq : Byte) (body : List Byte)
  /-- POLL CREATE (R108). -/
  | pollCreate (p : Port) (seq : Byte) (body : List Byte)
  /-- POLL CHANGE (R109). -/
  | pollChange (p : Port) (seq : Byte) (body : List Byte)
  /-- POLL PAUSE (R110). -/
  | pollPause (p : Port) (seq : Byte) (body : List Byte)
  /-- POLL RESUME (R110). -/
  | pollResume (p : Port) (seq : Byte) (body : List Byte)
  /-- POLL DELETE (R111). -/
  | pollDelete (p : Port) (seq : Byte) (body : List Byte)
  /-- POLL ADOPT (R112). -/
  | pollAdopt (p : Port) (seq : Byte) (body : List Byte)
  /-- SNAP READ (R113). -/
  | snapRead (p : Port) (seq : Byte) (body : List Byte)
  /-- CLAIM (R118). -/
  | claim (p : Port) (seq : Byte) (body : List Byte)
  /-- RENEW (R119). -/
  | renew (p : Port) (seq : Byte) (body : List Byte)
  /-- RELEASE (R120). -/
  | release (p : Port) (seq : Byte) (body : List Byte)
  /-- CLAIM QUERY (R122). -/
  | claimQuery (p : Port) (seq : Byte) (body : List Byte)
  /-- FETCH (R132). -/
  | fetch (p : Port) (seq : Byte) (body : List Byte)
  /-- NOTIFY SET (R138). -/
  | notifySet (p : Port) (seq : Byte) (body : List Byte)
  /-- NOTIFY ACK (R139). -/
  | notifyAck (p : Port) (seq : Byte) (body : List Byte)
  /-- PROPOSE (R147). -/
  | propose (p : Port) (seq : Byte) (body : List Byte)
  /-- CONFIRM (R148). -/
  | confirm (p : Port) (seq : Byte) (body : List Byte)
  /-- DECLINE (R149). -/
  | decline (p : Port) (seq : Byte) (body : List Byte)
  /-- WITHDRAW (R149). -/
  | withdraw (p : Port) (seq : Byte) (body : List Byte)
  /-- AGREE QUERY (R152). -/
  | agreeQuery (p : Port) (seq : Byte) (body : List Byte)
  /-- SWEEP_TIMER_EXPIRY (R80). -/
  | sweepTimerExpiry
  /-- TURNOVER (R83). -/
  | turnover
  /-- HEAD_DEADLINE_EXPIRY (R34): a turnover at which the head of chain `c` expires. -/
  | headDeadlineExpiry (c : ChainIx)
  /-- LEASE_EXPIRY (R121): a turnover at which the lease of entry `r` ends. -/
  | leaseExpiry (r : ResvIx)
  /-- PROPOSAL_LAPSED (R150): a turnover at which the pending proposal lapses. -/
  | proposalLapsed
  /-- POLL_DUE (R98): a turnover at which entry `e` falls due. -/
  | pollDue (e : PollIx)
  /-- PREAMBLE_END (R48). -/
  | preambleEnd
  /-- REQUEST_FRAME_SENT (R49). -/
  | requestFrameSent
  /-- REPLY_WINDOW_EXPIRY (R49). -/
  | replyWindowExpiry
  /-- REPLY_FRAME_RECEIVED (R52). -/
  | replyFrameReceived (f : ReplyFrame)
  /-- DISCARDING_END (R50). -/
  | discardingEnd
  /-- BROADCAST_GUARD_END (R53). -/
  | broadcastGuardEnd
  /-- LINE_FAULT (R60). -/
  | lineFault
  /-- LINE_OK (R61). -/
  | lineOk
  /-- REPLY_START_BIT (R49). -/
  | replyStartBit
  /-- REPLY_START (R51). -/
  | replyStart
  /-- HELD_OUTCOME (R50). -/
  | heldOutcome (c : HeldCause)
  deriving DecidableEq, Repr

end Sys2Proof
end

