-- ==== Sys2Proof/Decode.lean ====
section
/-! DEFINITION. Port frames (sections 12.1, 12.5): the CRC-8, the request codes, when a request frame is complete and which
command it is (R165, R166), and the encoder that lays a command out as the frame that spells it. No row of
spec/opcode_table.json gives its command bits, so `decodeTableWord` reads none (log 25). -/

namespace Sys2Proof

/-- The eight bits of a byte, most significant first (section 12, "most significant bit first"). -/
def bitsOf (b : Byte) : List Bool :=
  [b.getLsbD 7, b.getLsbD 6, b.getLsbD 5, b.getLsbD 4, b.getLsbD 3, b.getLsbD 2, b.getLsbD 1, b.getLsbD 0]

/-- One bit into a CRC remainder held most significant bit first, by the generator polynomial `poly` without its top term. -/
def crcBit {w : Nat} (poly r : BitVec w) (bit : Bool) : BitVec w :=
  if r.msb ^^ bit then (r <<< 1) ^^^ poly else r <<< 1

/-- A CRC over bytes, each most significant bit first, without inversion (R46, R176). -/
def crcBytes {w : Nat} (poly init : BitVec w) (bytes : List Byte) : BitVec w :=
  (bytes.flatMap bitsOf).foldl (crcBit poly) init

/-- The CRC-8 of port frames: polynomial x^8+x^2+x+1, initial value 0 (R176). -/
def crc8 (bytes : List Byte) : Byte := crcBytes 0x07 0x00 bytes

/-- A word as two bytes, most significant first (section 12, "Every multi-byte value"). -/
def wordBytes (w : Word) : List Byte := [w.extractLsb' 8 8, w.extractLsb' 0 8]

/-- Two bytes as a word, most significant first. -/
def wordOf (hi lo : Byte) : Word := hi ++ lo

/-- The number of words a reply's count byte gives (section 12.4). -/
def replyCount (count : Byte) : Nat := (count.extractLsb' 0 5).toNat

/-- The request codes of section 12.5, as the command a good frame with that code is; `none` is a code not in the catalogue. -/
def requestOf (code : Byte) (p : Port) (seq : Byte) (body : List Byte) : Option Instr :=
  match code.toNat with
  | 0x01 => some (.attach p seq body)
  | 0x02 => some (.status p seq body)
  | 0x03 => some (.detach p seq body)
  | 0x10 => some (.post p seq body)
  | 0x11 => some (.peek p seq body)
  | 0x12 => some (.cancel p seq body)
  | 0x13 => some (.targetQuery p seq body)
  | 0x20 => some (.chainSet p seq body)
  | 0x21 => some (.chainPause p seq body)
  | 0x22 => some (.chainGo p seq body)
  | 0x23 => some (.chainRetry p seq body)
  | 0x24 => some (.chainDrop p seq body)
  | 0x25 => some (.chainFlush p seq body)
  | 0x26 => some (.chainQuery p seq body)
  | 0x30 => some (.pollCreate p seq body)
  | 0x31 => some (.pollChange p seq body)
  | 0x32 => some (.pollPause p seq body)
  | 0x33 => some (.pollResume p seq body)
  | 0x34 => some (.pollDelete p seq body)
  | 0x35 => some (.pollAdopt p seq body)
  | 0x36 => some (.snapRead p seq body)
  | 0x40 => some (.claim p seq body)
  | 0x41 => some (.renew p seq body)
  | 0x42 => some (.release p seq body)
  | 0x43 => some (.claimQuery p seq body)
  | 0x50 => some (.fetch p seq body)
  | 0x51 => some (.notifySet p seq body)
  | 0x52 => some (.notifyAck p seq body)
  | 0x60 => some (.propose p seq body)
  | 0x61 => some (.confirm p seq body)
  | 0x62 => some (.decline p seq body)
  | 0x63 => some (.withdraw p seq body)
  | 0x64 => some (.agreeQuery p seq body)
  | _ => none

/-- The length byte of a frame is in range (R166, check 1). -/
def lengthInRange (len : Byte) : Bool :=
  Config.minFrameLength ≤ len.toNat && len.toNat ≤ Config.maxFrameLength

/-- A frame is complete at the last byte its length byte names, or at the length byte itself when that is out of range (R165). -/
def frameComplete (bytes : List Byte) : Bool :=
  match bytes with
  | [] => false
  | len :: _ => if lengthInRange len then bytes.length == len.toNat + 1 else bytes.length == 1

/-- Check 1 of R166 on a complete frame: the length byte is in range and the last byte is the CRC-8 of those before it. -/
def frameGood (bytes : List Byte) : Bool :=
  match bytes with
  | [] => false
  | len :: _ => lengthInRange len && (bytes.getLast? == some (crc8 bytes.dropLast))

/-- The command a complete frame is (R165, R166); `none` while the frame is not complete. -/
def frameCommand (p : Port) (bytes : List Byte) : Option Instr :=
  if frameComplete bytes then
    if frameGood bytes then
      match bytes with
      | _ :: code :: seq :: rest =>
        match requestOf code p seq rest.dropLast with
        | some i => some i
        | none => some (.unknown p code seq rest.dropLast)
      | _ => some (.frame p bytes)
    else some (.frame p bytes)
  else none

/-- The sequence byte a FRAME answer echoes: the third byte received, or 0 when none has been (R167). -/
def echoSeq (bytes : List Byte) : Byte := bytes.getD 2 0

/-- A request frame: length byte, code, sequence, body, CRC-8 (section 12.1). -/
def requestFrame (code seq : Byte) (body : List Byte) : List Byte :=
  let head := BitVec.ofNat 8 (body.length + 3) :: code :: seq :: body
  head ++ [crc8 head]

/-- A response frame: start byte, sequence, result code, body length, body, CRC-8 from the sequence on (section 12.1). -/
def responseFrame (seq result : Byte) (body : List Byte) : List Byte :=
  let rest := seq :: result :: BitVec.ofNat 8 body.length :: body
  0x5A :: rest ++ [crc8 rest]

/-- The request code, sequence and body of a request command, with its port (section 12.5). -/
def requestParts : Instr → Option (Port × Byte × Byte × List Byte)
  | .attach p seq body => some (p, 0x01, seq, body)
  | .status p seq body => some (p, 0x02, seq, body)
  | .detach p seq body => some (p, 0x03, seq, body)
  | .post p seq body => some (p, 0x10, seq, body)
  | .peek p seq body => some (p, 0x11, seq, body)
  | .cancel p seq body => some (p, 0x12, seq, body)
  | .targetQuery p seq body => some (p, 0x13, seq, body)
  | .chainSet p seq body => some (p, 0x20, seq, body)
  | .chainPause p seq body => some (p, 0x21, seq, body)
  | .chainGo p seq body => some (p, 0x22, seq, body)
  | .chainRetry p seq body => some (p, 0x23, seq, body)
  | .chainDrop p seq body => some (p, 0x24, seq, body)
  | .chainFlush p seq body => some (p, 0x25, seq, body)
  | .chainQuery p seq body => some (p, 0x26, seq, body)
  | .pollCreate p seq body => some (p, 0x30, seq, body)
  | .pollChange p seq body => some (p, 0x31, seq, body)
  | .pollPause p seq body => some (p, 0x32, seq, body)
  | .pollResume p seq body => some (p, 0x33, seq, body)
  | .pollDelete p seq body => some (p, 0x34, seq, body)
  | .pollAdopt p seq body => some (p, 0x35, seq, body)
  | .snapRead p seq body => some (p, 0x36, seq, body)
  | .claim p seq body => some (p, 0x40, seq, body)
  | .renew p seq body => some (p, 0x41, seq, body)
  | .release p seq body => some (p, 0x42, seq, body)
  | .claimQuery p seq body => some (p, 0x43, seq, body)
  | .fetch p seq body => some (p, 0x50, seq, body)
  | .notifySet p seq body => some (p, 0x51, seq, body)
  | .notifyAck p seq body => some (p, 0x52, seq, body)
  | .propose p seq body => some (p, 0x60, seq, body)
  | .confirm p seq body => some (p, 0x61, seq, body)
  | .decline p seq body => some (p, 0x62, seq, body)
  | .withdraw p seq body => some (p, 0x63, seq, body)
  | .agreeQuery p seq body => some (p, 0x64, seq, body)
  | .unknown p code seq body => some (p, code, seq, body)
  | .powerOn | .selAssert _ | .selRelease _ | .prstAssert _ | .prstDeassert _ | .responseSent _ | .frame _ _
  | .sweepTimerExpiry | .turnover | .headDeadlineExpiry _ | .leaseExpiry _ | .proposalLapsed | .pollDue _
  | .preambleEnd | .requestFrameSent | .replyWindowExpiry | .replyFrameReceived _ | .discardingEnd
  | .broadcastGuardEnd | .lineFault | .lineOk | .replyStartBit | .replyStart | .heldOutcome _ => none

/-- The port and the bytes of the frame that spells a command, for the commands that are completed frames. -/
def frameOf : Instr → Option (Port × List Byte)
  | .frame p bytes => some (p, bytes)
  | i => (requestParts i).map fun x => (x.1, requestFrame x.2.1 x.2.2.1 x.2.2.2)

/-- The command that a table word spells: no row of the table has bits, so none (log 25). -/
def decodeTableWord (_nbits _w : Nat) : Option Instr := none

end Sys2Proof
end

