-- ==== Sys2Proof/Machine/State.lean ====
section
/-! DEFINITION. The state of the CDK-4410: every piece INVENTORY.md lists, as plain data, block by block (00_scope, "Block
overview"), and the state right after power-on. What the spec defines from other state (a chain's state, a port's holding, the
NOTIFY outputs, the words received so far) is computed in Machine/Ops.lean and Machine/Flags.lean and stored nowhere (log 11). -/

namespace Sys2Proof.Machine

/-! ### Transfer Store (01) -/

/-- The kinds of record (R1); the order is the code order of section 12.2. -/
inductive Kind where
  | read | write | modify | broadcast
  deriving DecidableEq, Repr

/-- The eight exchange outcomes (R52). -/
inductive Outcome where
  | done | short | wait | refused | noreply | corrupt | overlong | line
  deriving DecidableEq, Repr

/-- The five halt reasons (section 4.6). -/
inductive HaltReason where
  | refused | overlong | exhausted | fenced | expired
  deriving DecidableEq, Repr

/-- The five end kinds (R19). -/
inductive EndKind where
  | completed | cancelled | skipped | dropped | damaged
  deriving DecidableEq, Repr

/-- The states of a held slot (R2); FREE is a slot that holds no record. -/
inductive RecordState where
  | queued | active | halted | done | orphaned | damaged
  deriving DecidableEq, Repr

/-- A field stored as a code byte: absent, a value its table gives, or, in a slot whose bits were upset, a code the table gives
no meaning; such a code is sent as stored (R178, log 12). -/
inductive Stored (α : Type) where
  | absent
  | known (a : α)
  | other (code : Byte)
  deriving DecidableEq, Repr

/-- A register range: the first register and the count less one, as the frames and images carry them (sections 12.2, 12.4). -/
structure Span where
  register : BitVec 12
  countM1 : BitVec 4
  deriving DecidableEq, Repr

/-- A record's result (section 1.1): absent, the words of a READ, or the pair of a MODIFY. -/
inductive Result where
  | absent
  | words (ws : List Word)
  | pair (old written : Word)
  deriving DecidableEq, Repr

/-- A transfer record (section 1.1). -/
structure Record where
  -- fields given by the master
  kind : Kind
  target : BitVec 6
  span : Span
  data : List Word
  chain : Fin 4
  tag : Word
  budget : Nat
  deadline : Nat
  note : Bool
  groupEnd : Bool
  stopShort : Bool
  -- fields the part adds
  owner : Option Port
  state : RecordState
  postedSweep : Word
  attempts : Nat
  budgetLeft : Nat
  lastOutcome : Stored Outcome
  haltReason : Stored HaltReason
  cancelPending : Bool
  result : Result
  endKind : Option EndKind
  cancelLate : Bool
  completionSweep : Option Word
  deriving DecidableEq, Repr

/-- One slot: its generation, its record (none: FREE) and its check code, held as whether it matches the stored contents
(section 1.5, log 5). The code of a FREE slot is never verified, and the spec gives it no value, neither at power-on nor after a
freeing, where it is not written: that the model then holds it as matching is a DESIGN CHOICE (log 5). -/
structure Slot where
  gen : Byte
  record : Option Record
  codeMatches : Bool
  deriving DecidableEq, Repr

/-! ### Chain Manager (02) -/

/-- A chain's fields (section 2.1). -/
structure Chain where
  list : List SlotIx
  hold : Bool
  priority : Nat
  burst : Nat
  age : Nat
  deriving DecidableEq, Repr

/-- A chain's state, which follows from its head (R22). -/
inductive ChainState where
  | empty | ready | busy | halted
  deriving DecidableEq, Repr

/-- The grant in progress (R31). -/
structure Grant where
  chain : ChainIx
  completed : Nat
  deriving DecidableEq, Repr

/-! ### Field Engine (03) -/

/-- The field rates (R44). -/
inductive Rate where
  | fast  -- 1 Mbit/s
  | slow  -- 250 kbit/s
  deriving DecidableEq, Repr

/-- The line monitor's states (R60, R61). -/
inductive LineState where
  | ok | fault
  deriving DecidableEq, Repr

/-- What started an exchange (R47). -/
inductive Origin where
  | record (slot : SlotIx) (gen : Byte)
  | poll (entry : PollIx) (edit : Byte)
  deriving DecidableEq, Repr

/-- The phase of an exchange (R47). -/
inductive ExPhase where
  | single | modifyRead | modifyWrite | broadcast
  deriving DecidableEq, Repr

/-- The operation of a request frame (R45). -/
inductive Op where
  | read | write
  deriving DecidableEq, Repr

/-- The stages of an exchange (R47). -/
inductive Stage where
  | preamble | sending | window | receiving | discarding | guard
  deriving DecidableEq, Repr

/-- The exchange record (R47), with the bit periods counted in its stage and the bits still to send or taken so far. -/
structure Exchange where
  origin : Origin
  phase : ExPhase
  op : Op
  target : BitVec 6
  span : Span
  parity : Bool
  send : List Word
  oldValue : Option Word
  stage : Stage
  replyStart : Bool
  held : Option Outcome
  count : Nat
  tx : List Bool
  rx : List Bool
  deriving DecidableEq, Repr

/-- A target's presence (R57). -/
inductive Presence where
  | unknown | present | silent
  deriving DecidableEq, Repr

/-- A Target Table entry (R57). -/
structure Target where
  parity : Bool
  presence : Presence
  run : Nat
  lastSweep : Option Word
  deriving DecidableEq, Repr

/-! ### Sweep Controller (05) -/

/-- The two parts of a sweep (R79). -/
inductive SweepPhase where
  | poll | chain
  deriving DecidableEq, Repr

/-- The scheduler states (R154). -/
inductive Sched where
  | running | draining | stopped | faulted
  deriving DecidableEq, Repr

/-! ### Poll Unit (06) -/

/-- A snapshot (R102). -/
structure Snapshot where
  words : List Word
  srcTarget : BitVec 6
  srcSpan : Span
  valid : Bool
  seq : Word
  age : Nat
  failRun : Nat
  stale : Bool
  last : Option Outcome
  deriving DecidableEq, Repr

/-- What an in-use poll entry holds (R97), with its snapshot. -/
structure PollBody where
  paused : Bool
  target : BitVec 6
  span : Span
  period : Nat
  phase : Nat
  creator : Option Port
  missed : Nat
  snap : Snapshot
  deriving DecidableEq, Repr

/-- A poll entry: FREE when it has no body; the edit count is kept in every state (R97). -/
structure PollEntry where
  edit : Byte
  body : Option PollBody
  deriving DecidableEq, Repr

/-! ### Reservation Unit (07) -/

/-- A held entry of the Reservation Table (R116). -/
structure Reservation where
  owner : Port
  base : BitVec 6
  mask : BitVec 6
  priv : Bool
  lease : Nat
  remaining : Nat
  deriving DecidableEq, Repr

/-! ### Report Unit (08) -/

/-- One port's report queue and notify causes (R129, R135). Bit n of `pending` and `enables` is the cause with code n of
section 12.5; `marks` has the four deferred causes, bits 0 to 3. -/
structure Report where
  queue : List SlotIx
  pending : Byte
  enables : Byte
  marks : BitVec 4
  deriving DecidableEq, Repr

/-! ### Agreement Unit (09) -/

/-- The proposal kinds with their values (R144). -/
inductive Change where
  | sweepLength (ms : Nat)
  | pollWindow (polls : Nat)
  | quotas (q : Vector Nat 4)
  | fieldRate (r : Rate)
  | stop
  | start
  | restart
  deriving DecidableEq, Repr

/-- The outcomes of a decision (R143). -/
inductive Verdict where
  | adopted | declined | lapsed | withdrawn | void
  deriving DecidableEq, Repr

/-- A set of ports, bit n for Pn (section 12.5). -/
abbrev PortSet := BitVec 4

/-- A proposal record (R143). -/
structure Proposal where
  number : Byte
  change : Change
  proposer : Port
  required : PortSet
  confirmed : PortSet
  window : Nat
  deriving DecidableEq, Repr

/-- A decision record (R143). -/
structure Decision where
  number : Byte
  change : Change
  proposer : Port
  confirmed : PortSet
  verdict : Verdict
  deriving DecidableEq, Repr

/-! ### Master Port Interface (11) -/

/-- The transaction states of a port (R164). -/
inductive Txn where
  | waiting | receiving | answering | spent | resetHeld
  deriving DecidableEq, Repr

/-- A response being shifted out: idle 0x00 bytes still to drive (R167), and the frame's bytes still to drive. -/
structure Answer where
  idle : Nat
  bytes : List Byte
  deriving DecidableEq, Repr

/-- One port's interface: its pins, transaction and session (R164, R169). `sdo` is the byte SDO drives, or drove last; none while SEL
is released and SDO is not driven (R164, log 20). -/
structure PortIf where
  sel : Bool
  prst : Bool
  txn : Txn
  rx : List Byte
  answer : Option Answer
  sdo : Option Byte
  attached : Bool
  session : Byte
  deriving DecidableEq, Repr

/-! ### The whole -/

/-- What the devices on the pair do in one bit period: release it or drive a bit (section 3.1). -/
inductive Drive where
  | released
  | driven (bit : Bool)
  deriving DecidableEq, Repr

/-- What the outside does that no command row names (log 2): one byte clocked at a port (R164), one bit period of the field
pair (R44), or an upset of a slot's stored bits, with the contents it leaves (section 10.2, log 5). -/
inductive WireEvent where
  | byteIn (p : Port) (b : Byte)
  | bit (d : Drive)
  | upset (i : SlotIx) (stored : Record)
  deriving DecidableEq, Repr

/-- The whole state of the part. -/
structure State where
  -- Master Port Interfaces
  ports : Vector PortIf 4
  -- Transfer Store
  slots : Vector Slot 128
  quotas : Vector Nat 4
  -- Chain Manager
  chains : Vector Chain 16
  grant : Option Grant
  -- Field Engine
  exchange : Option Exchange
  rate : Rate
  line : LineState
  run : Nat
  releasedCount : Nat
  targets : Vector Target 63
  -- Sweep Controller and Field Arbiter
  timerLength : Nat
  expired : Bool
  sweep : Word
  sweepLength : Nat
  nextSweepLength : Option Nat
  pollWindow : Nat
  nextPollWindow : Option Nat
  pollsRun : Nat
  phase : SweepPhase
  overruns : Nat
  sched : Sched
  pointer : ChainIx
  -- Poll Unit
  polls : Vector PollEntry 48
  pollPending : List PollIx
  -- Reservation Unit
  resvs : Vector (Option Reservation) 8
  -- Report Unit
  reports : Vector Report 4
  -- Agreement Unit
  proposal : Option Proposal
  lastNumber : Byte
  decision : Option Decision
  -- the model's own: free values consumed (log 6), the queue of commands, and the inputs from outside that no row names (log 2)
  fresh : Nat
  pending : List Instr
  wires : List WireEvent
  deriving DecidableEq, Repr

/-- No command faults: the spec gives every command an effect, and a store fault or a line fault is an effect on State. -/
inductive Fault : Type
  deriving DecidableEq, Repr

/-- Why a command has no meaning here. -/
inductive Refusal where
  /-- Raised by an arm of `exec` for a command whose meaning is not written yet; safe. No arm raises it. -/
  | notModelled (mnemonic : String)
  deriving DecidableEq, Repr

/-! ### Power-on values -/

/-- A slot after power-on (R3). R3 gives the code of a FREE slot no value: that it matches is the model's choice (DESIGN CHOICE,
log 5). -/
def Slot.powerOn : Slot := { gen := 0, record := none, codeMatches := true }

/-- A chain after power-on and after its port's session end (R42, R43). -/
def Chain.powerOn : Chain := { list := [], hold := false, priority := 1, burst := 1, age := 0 }

/-- A Target Table entry after power-on (R57). -/
def Target.powerOn : Target := { parity := false, presence := .unknown, run := 0, lastSweep := none }

/-- A report queue and the causes of a port after power-on and after its session end (R142). -/
def Report.powerOn : Report := { queue := [], pending := 0, enables := 0, marks := 0 }

/-- A port's interface after power-on, given the levels of its pins (R164, R175; true is held or asserted). With SEL held SDO drives
0x00 (R164, R172). -/
def PortIf.powerOn (sel prst : Bool) : PortIf :=
  { sel := sel
    prst := prst
    txn := if prst then .resetHeld else if sel then .spent else .waiting
    rx := []
    answer := none
    sdo := if sel then some 0 else none
    attached := false
    session := 0 }

/-- The part right after reset (R3, R43, R62, R96, R115, R127, R142, R153, R163, R175), with SEL and PRST released at every
port (log 8) and nothing waiting. -/
def State.reset : State :=
  { ports := Vector.replicate 4 (PortIf.powerOn false false)
    slots := Vector.replicate 128 Slot.powerOn
    quotas := Vector.replicate 4 32
    chains := Vector.replicate 16 Chain.powerOn
    grant := none
    exchange := none
    rate := .fast
    line := .ok
    run := 0
    releasedCount := 0
    targets := Vector.replicate 63 Target.powerOn
    timerLength := 10
    expired := false
    sweep := 0
    sweepLength := 10
    nextSweepLength := none
    pollWindow := 16
    nextPollWindow := none
    pollsRun := 0
    phase := .chain
    overruns := 0
    sched := .running
    pointer := 15
    polls := Vector.replicate 48 { edit := 0, body := none }
    pollPending := []
    resvs := Vector.replicate 8 none
    reports := Vector.replicate 4 Report.powerOn
    proposal := none
    lastNumber := 0
    decision := none
    fresh := 0
    pending := []
    wires := [] }

end Sys2Proof.Machine
end

