-- ==== Sys2Proof/Machine/Flags.lean ====
section
/-! DEFINITION. The notify causes (08, section 8.4): raising an immediate cause, marking a deferred one, making the marks pending
at a turnover, and the NOTIFY output that follows from them. Two helpers on fixed-length tables stand first. -/

namespace Sys2Proof.Machine

/-- A table with its entry `i` changed by `f`. -/
def modAt {α : Type} {n : Nat} (v : Vector α n) (i : Fin n) (f : α → α) : Vector α n := v.set i.val (f v[i]) i.isLt

/-- A table from its entries. -/
def tab {α : Type} {n : Nat} (f : Fin n → α) : Vector α n := Vector.ofFn f

/-- The eight causes (section 8.4). -/
inductive Cause where
  | report | halt | stale | target | lease | proposal | decided | fault
  deriving DecidableEq, Repr

/-- A cause's bit in a cause set (section 12.5). -/
def Cause.bit : Cause → Byte
  | .report => 0x01
  | .halt => 0x02
  | .stale => 0x04
  | .target => 0x08
  | .lease => 0x10
  | .proposal => 0x20
  | .decided => 0x40
  | .fault => 0x80

/-- The four deferred causes (section 8.4). -/
inductive Deferred where
  | report | halt | stale | target
  deriving DecidableEq, Repr

/-- A deferred cause's bit among a port's marks, the same bit it has in a cause set. -/
def Deferred.bit : Deferred → BitVec 4
  | .report => 1
  | .halt => 2
  | .stale => 4
  | .target => 8

/-- The port has a session (R169). -/
def State.attached (s : State) (p : Port) : Bool := s.ports[p].attached

/-- Raise an immediate cause at a port: its pending flag, only while the port is attached (R135, R137). -/
def raise (c : Cause) (p : Port) (s : State) : State :=
  if s.attached p then { s with reports := modAt s.reports p fun r => { r with pending := r.pending ||| c.bit } } else s

/-- Raise an immediate cause at every attached port (R60, R145, R158). -/
def raiseAll (c : Cause) (s : State) : State :=
  { s with reports := tab fun p =>
      if s.attached p then { s.reports[p] with pending := s.reports[p].pending ||| c.bit } else s.reports[p] }

/-- Raise a deferred cause at a port: its mark, only while the port is attached (R135, R136). -/
def mark (d : Deferred) (p : Port) (s : State) : State :=
  if s.attached p then { s with reports := modAt s.reports p fun r => { r with marks := r.marks ||| d.bit } } else s

/-- Raise a deferred cause at every attached port (R58). -/
def markAll (d : Deferred) (s : State) : State :=
  { s with reports := tab fun p =>
      if s.attached p then { s.reports[p] with marks := s.reports[p].marks ||| d.bit } else s.reports[p] }

/-- The marks of the four ports. -/
abbrev Marks := Vector (BitVec 4) 4

/-- The marks as they stand. -/
def State.marks (s : State) : Marks := tab fun p => s.reports[p].marks

/-- The state with no mark set: an event that a turnover may follow gathers its own marks apart from the earlier ones. -/
def clearMarks (s : State) : State :=
  { s with reports := tab fun p => { s.reports[p] with marks := 0 } }

/-- The earlier marks beside those of the event, when no turnover followed in it. -/
def restoreMarks (earlier : Marks) (s : State) : State :=
  { s with reports := tab fun p => { s.reports[p] with marks := s.reports[p].marks ||| earlier[p] } }

/-- One port's flags at a turnover: the earlier marks become pending (R136). Marks set in the turnover's own event, by the end
of the exchange it waited for, become pending now or at the following turnover, as the free constant says (log 7). -/
def Report.pendMarks (earlier : BitVec 4) (r : Report) : Report :=
  if Config.endMarksPendNow then
    { r with pending := r.pending ||| (earlier ||| r.marks).zeroExtend 8, marks := 0 }
  else
    { r with pending := r.pending ||| earlier.zeroExtend 8 }

/-- The Report Unit's reaction to a turnover, for each attached port (R84, R136). -/
def pendMarks (earlier : Marks) (s : State) : State :=
  { s with reports := tab fun p =>
      if s.attached p then s.reports[p].pendMarks earlier[p]
      else { s.reports[p] with marks := s.reports[p].marks ||| earlier[p] } }

/-- The port's NOTIFY output: asserted while it is ATTACHED and some cause is both pending and enabled (R140). -/
def State.notify (s : State) (p : Port) : Bool :=
  s.attached p && (s.reports[p].pending &&& s.reports[p].enables != 0)

end Sys2Proof.Machine
end

