-- ==== Sys2Proof/Machine/Ops.lean ====
section
/-! DEFINITION. The named operations on the part's tables: slots and their lists, chains, retirement and freeing, the store
fault, the fence, the Target Table's addresses, and taking a request and answering it. -/

namespace Sys2Proof.Machine

/-! ### Slots (01) -/

/-- The record a slot holds; none while it is FREE (R2). -/
def State.record (s : State) (i : SlotIx) : Option Record := s.slots[i].record

/-- Write a slot's record, and its check code anew (section 1.5). -/
def putRecord (i : SlotIx) (r : Record) (s : State) : State :=
  { s with slots := modAt s.slots i fun sl => { sl with record := some r, codeMatches := true } }

/-- Free a slot: its generation rises by 1 and every record field becomes absent (R5). The code is not written at a freeing and never
verified while the slot is FREE (section 1.5): that the model holds it as matching from then on is its choice (DESIGN CHOICE,
log 5). -/
def freeSlot (i : SlotIx) (s : State) : State :=
  { s with slots := modAt s.slots i fun sl => { gen := sl.gen + 1, record := none, codeMatches := true } }

/-- The lowest-numbered FREE slot (R4). -/
def State.lowestFree (s : State) : Option SlotIx :=
  (List.finRange 128).find? fun i => s.slots[i].record.isNone

/-- A slot counts toward a port's holding: held, and owned by the port (section 1.2, R2). -/
def State.ownedBy (s : State) (p : Port) (i : SlotIx) : Bool :=
  match s.record i with
  | some r => r.owner == some p
  | none => false

/-- A port's holding (section 1.2). -/
def State.holding (s : State) (p : Port) : Nat := (List.finRange 128).countP (s.ownedBy p)

/-! ### Chains (02) -/

/-- The chain id of a port's chain (section 2.1). -/
def chainIx (p : Port) (c : Fin 4) : ChainIx := ⟨4 * p.val + c.val, by omega⟩

/-- The port a chain belongs to (section 2.1). -/
def chainPort (c : ChainIx) : Port := ⟨c.val / 4, by omega⟩

/-- The chain a record was posted to (R10); only a DAMAGED record has no owner, and it is in no chain. -/
def Record.home (r : Record) : ChainIx := chainIx (r.owner.getD 0) r.chain

/-- The head of a chain with its record (R21). -/
def State.head (s : State) (c : ChainIx) : Option (SlotIx × Record) :=
  match s.chains[c].list with
  | [] => none
  | i :: _ => (s.record i).map fun r => (i, r)

/-- The chain's state, from its head (R22). -/
def State.chainState (s : State) (c : ChainIx) : ChainState :=
  match s.head c with
  | none => .empty
  | some (_, r) =>
    match r.state with
    | .queued => .ready
    | .active => .busy
    | .halted => .halted
    | .done | .orphaned | .damaged => .empty

/-- A chain without slot `i`: the others keep their order, and the age becomes 0 when the chain becomes EMPTY (R22, R28). -/
def Chain.remove (i : SlotIx) (ch : Chain) : Chain :=
  if i ∈ ch.list then
    { ch with list := ch.list.filter (· != i), age := if (ch.list.filter (· != i)).isEmpty then 0 else ch.age }
  else ch

/-- Take a slot out of the chain or report queue that lists it (R28, R131, R132). -/
def unlist (i : SlotIx) (s : State) : State :=
  { s with
    chains := tab fun c => s.chains[c].remove i
    reports := tab fun p => { s.reports[p] with queue := s.reports[p].queue.filter (· != i) } }

/-- Append a slot to a chain's tail (R23). -/
def appendChain (c : ChainIx) (i : SlotIx) (s : State) : State :=
  { s with chains := modAt s.chains c fun ch => { ch with list := ch.list ++ [i] } }

/-- End the grant in progress, if there is one (R31, R33). -/
def endGrant (s : State) : State := { s with grant := none }

/-- The head of chain `c`, slot `i` with record `r`, becomes HALTED, and the HALT mark of the chain's port is set (R22, R76). -/
def haltHead (c : ChainIx) (i : SlotIx) (r : Record) (why : HaltReason) (s : State) : State :=
  mark .halt (chainPort c) (putRecord i { r with state := .halted, haltReason := .known why } s)

/-! ### Retirement (R19, R130) -/

/-- Put a slot at the tail of a port's report queue and set its REPORT mark (R130). -/
def enqueueNote (p : Port) (i : SlotIx) (s : State) : State :=
  mark .report p { s with reports := modAt s.reports p fun q => { q with queue := q.queue ++ [i] } }

/-- Retire slot `i`, whose record is `r`, with an end kind: out of its list, DONE, completion sweep set, into its owner's report
queue (R19). The code is written anew over the fields as stored, those of an upset slot included: a DESIGN CHOICE (log 30). -/
def retire (i : SlotIx) (r : Record) (k : EndKind) (s : State) : State :=
  let s := unlist i s
  let s := putRecord i { r with state := .done, endKind := some k, completionSweep := some s.sweep } s
  match r.owner with
  | some p => enqueueNote p i s
  | none => s

/-- Retire a slot with the record it holds. -/
def retireSlot (i : SlotIx) (k : EndKind) (s : State) : State :=
  match s.record i with
  | some r => retire i r k s
  | none => s

/-! ### Cancel (R15) -/

/-- Set the cancel-pending flag of the ACTIVE record `r` of slot `i` (R15, R40). With the flag already set nothing changes, so the
check code is not written anew either. -/
def setCancelPending (i : SlotIx) (r : Record) (s : State) : State :=
  if r.cancelPending then s else putRecord i { r with cancelPending := true } s

/-! ### Store fault (R158) -/

/-- A slot found with a mismatched check code becomes DAMAGED and leaves its list; its fields stay as stored, and its code is
written anew (R158, step 1). -/
def damageSlot (i : SlotIx) (s : State) : State :=
  match s.record i with
  | some r => putRecord i { r with state := .damaged } (unlist i s)
  | none => s

/-- The rest of a store fault: the scheduler becomes FAULTED, a grant ends, FAULT is raised (R158, steps 2 to 4). -/
def storeFault (s : State) : State := raiseAll .fault { endGrant s with sched := .faulted }

/-! ### The fence (07) -/

/-- The entry matches a target address; address 0 is in no match set (R117). -/
def matches6 (base mask t : BitVec 6) : Bool := t != 0 && (t &&& mask == base &&& mask)

/-- The Reservation Table holds an entry of a port other than `p` with the property. -/
def State.otherClaim (s : State) (p : Port) (f : Reservation → Bool) : Bool :=
  (List.finRange 8).any fun e =>
    match s.resvs[e] with
    | some r => r.owner != p && f r
    | none => false

/-- A record of port `p` with this kind and target is fenced (R123). -/
def State.fenced (s : State) (p : Port) (k : Kind) (t : BitVec 6) : Bool :=
  s.otherClaim p fun r =>
    match k with
    | .write | .modify => matches6 r.base r.mask t
    | .broadcast => true
    | .read => r.priv && matches6 r.base r.mask t

/-- A target is withheld from port `p` (R123). -/
def State.withheld (s : State) (p : Port) (t : BitVec 6) : Bool :=
  s.otherClaim p fun r => r.priv && matches6 r.base r.mask t

/-! ### Target Table addresses (R57) -/

/-- The Target Table entry of an address; address 0 has none. -/
def targetIx (t : BitVec 6) : Option (Fin 63) :=
  if h : t.toNat ≠ 0 then some ⟨t.toNat - 1, by omega⟩ else none

/-- The write parity the Target Table holds for an address; 0 for address 0, which has no entry and which a WRITE carries only after
an upset (R45, log 29). -/
def State.parityOf (s : State) (t : BitVec 6) : Bool :=
  match targetIx t with
  | some e => s.targets[e].parity
  | none => false

/-! ### Requests (11) -/

/-- The result codes (section 11.5). -/
inductive ResultCode where
  | ok | frame | unknown | detached | badfield | quota | fenced | nosuch | stale | notowner | conflict | full | exist | busy
  | state | faulted | empty
  deriving DecidableEq, Repr

/-- The code of a result (section 12.5). -/
def ResultCode.code : ResultCode → Byte
  | .ok => 0x00
  | .frame => 0x01
  | .unknown => 0x02
  | .detached => 0x03
  | .badfield => 0x04
  | .quota => 0x05
  | .fenced => 0x06
  | .nosuch => 0x07
  | .stale => 0x08
  | .notowner => 0x09
  | .conflict => 0x0A
  | .full => 0x0B
  | .exist => 0x0C
  | .busy => 0x0D
  | .state => 0x0E
  | .faulted => 0x0F
  | .empty => 0x10

/-- How a request was taken: its result code, its response body and the state after its effect. -/
structure Reply where
  code : ResultCode
  body : List Byte
  state : State
  deriving DecidableEq, Repr

/-- A refusal: it changes no state and carries no body (R166). -/
def refuse (c : ResultCode) (s : State) : Reply := { code := c, body := [], state := s }

/-- A request carried out and answered OK. -/
def ok (body : List Byte) (s : State) : Reply := { code := .ok, body := body, state := s }

/-- The port enters ANSWERING with its response: a free number of idle bytes, then the frame (R167). -/
def respond (p : Port) (seq : Byte) (c : ResultCode) (body : List Byte) (s : State) : State :=
  { s with
    ports := modAt s.ports p fun q =>
      { q with
        txn := .answering
        rx := []
        answer := some { idle := (Config.idleBytes s.fresh).val, bytes := responseFrame seq c.code body } }
    fresh := s.fresh + 1 }

/-- Take a completed request frame: only a port in RECEIVING takes one (R164, R165); bytes clocked in any other state are
ignored. The request is carried out and answered in the same event (R166, R167). -/
def takeRequest (p : Port) (seq : Byte) (f : State → Reply) (s : State) : Host.Outcome State Fault Refusal :=
  if s.ports[p].txn = .receiving then .next (respond p seq (f s).code (f s).body (f s).state) else .next s

/-- The attachment check that stands first in every request but ATTACH and STATUS (R169). -/
def whenAttached (p : Port) (f : State → Reply) (s : State) : Reply :=
  if s.attached p then f s else refuse .detached s

end Sys2Proof.Machine
end

