-- ==== Sys2Proof/Machine/Operands.lean ====
section
/-! DEFINITION. Every form of request body (12, sections 12.2, 12.5, 12.6): its length, its fields and their ranges. A body out
of range reads as `none`, which its request answers BADFIELD (R166, R177, R179). -/

namespace Sys2Proof.Machine

/-- Data words, two bytes each (section 12.2); an odd byte left over is no word. -/
def wordsOf : List Byte → List Word
  | hi :: lo :: rest => wordOf hi lo :: wordsOf rest
  | _ => []

/-- A number carried by a span: its count of registers (section 12.2). -/
def Span.count (sp : Span) : Nat := sp.countM1.toNat + 1

/-- The span a 16-bit field carries: count less one in bits 15 to 12, register in bits 11 to 0 (section 12.2). -/
def spanOf (w : Word) : Span := { register := w.extractLsb' 0 12, countM1 := w.extractLsb' 12 4 }

/-- A span stays within the 4096 field registers (R1, R107). -/
def Span.fits (sp : Span) : Bool := sp.register.toNat + sp.countM1.toNat ≤ 4095

/-- A record kind from its code (section 12.2). -/
def kindOf (b : Byte) : Option Kind :=
  match b.toNat with
  | 0 => some .read
  | 1 => some .write
  | 2 => some .modify
  | 3 => some .broadcast
  | _ => none

/-- The data words a kind and count call for (R177). -/
def dataWords (k : Kind) (sp : Span) : Nat :=
  match k with
  | .write | .broadcast => sp.count
  | .modify => 2
  | .read => 0

/-- The fields a POST body gives (section 1.1). -/
structure PostBody where
  kind : Kind
  target : BitVec 6
  span : Span
  data : List Word
  chain : Fin 4
  tag : Word
  budget : Nat
  deadline : Nat
  note : Bool
  groupEnd : Bool
  stopShort : Bool
  deriving DecidableEq, Repr

/-- The ranges of R1 on the decoded fields. -/
def PostBody.inRange (b : PostBody) : Bool :=
  (match b.kind with
   | .broadcast => b.target == 0
   | .read | .write | .modify => b.target != 0) &&
  (b.kind != .modify || b.span.countM1 == 0) &&
  b.span.fits &&
  (b.data.length == dataWords b.kind b.span) &&
  (!b.stopShort || b.kind == .read)

/-- A POST body in range (R1, R177). -/
def parsePost : List Byte → Option PostBody
  | b0 :: b1 :: b2 :: b3 :: b4 :: b5 :: b6 :: b7 :: rest =>
    match kindOf b0 with
    | none => none
    | some k =>
      let b : PostBody :=
        { kind := k
          target := b2.extractLsb' 0 6
          span := spanOf (wordOf b3 b4)
          data := wordsOf rest
          chain := (b1.extractLsb' 0 2).toFin
          tag := wordOf b5 b6
          budget := (b1.extractLsb' 2 3).toNat
          deadline := b7.toNat
          note := b1.getLsbD 5
          groupEnd := b1.getLsbD 6
          stopShort := b1.getLsbD 7 }
      if b2.toNat ≤ 63 ∧ rest.length = 2 * dataWords k b.span ∧ b.inRange then some b else none
  | _ => none

/-- A flag sent in a byte of its own: 0 or 1 (section 12.5). -/
def flagOf (b : Byte) : Option Bool :=
  match b.toNat with
  | 0 => some false
  | 1 => some true
  | _ => none

/-- A handle: slot 0 to 127, then any generation (R6, check 2). -/
def parseHandle : List Byte → Option (SlotIx × Byte)
  | [slot, gen] => if h : slot.toNat < 128 then some (⟨slot.toNat, h⟩, gen) else none
  | _ => none

/-- One of the port's chains, 0 to 3 (R35, check 2). -/
def parseChain : List Byte → Option (Fin 4)
  | [c] => if h : c.toNat < 4 then some ⟨c.toNat, h⟩ else none
  | _ => none

/-- CHAIN SET: chain, priority 0 to 3, burst 1 to 8 (R36). -/
def parseChainSet : List Byte → Option (Fin 4 × Nat × Nat)
  | [c, prio, burst] =>
    match parseChain [c] with
    | some c => if prio.toNat ≤ 3 ∧ 1 ≤ burst.toNat ∧ burst.toNat ≤ 8 then some (c, prio.toNat, burst.toNat) else none
    | none => none
  | _ => none

/-- CHAIN QUERY: chain, start position 0 to 127 (R41). -/
def parseChainQuery : List Byte → Option (Fin 4 × Nat)
  | [c, start] =>
    match parseChain [c] with
    | some c => if start.toNat ≤ 127 then some (c, start.toNat) else none
    | none => none
  | _ => none

/-- A field address 1 to 63 (R59). -/
def parseTarget : List Byte → Option (Fin 63)
  | [a] => if a.toNat ≤ 63 then targetIx (a.extractLsb' 0 6) else none
  | _ => none

/-- A poll entry's definition (R97). -/
structure PollDef where
  target : BitVec 6
  span : Span
  period : Nat
  phase : Nat
  deriving DecidableEq, Repr

/-- A definition in range (R107): target, count − 1 with register, period, phase. -/
def parsePollDef : List Byte → Option PollDef
  | [t, hi, lo, period, phase] =>
    let sp := spanOf (wordOf hi lo)
    if 1 ≤ t.toNat ∧ t.toNat ≤ 63 ∧ sp.count ≤ 4 ∧ sp.fits ∧ 1 ≤ period.toNat ∧ period.toNat ≤ 250 ∧
        phase.toNat < period.toNat then
      some { target := t.extractLsb' 0 6, span := sp, period := period.toNat, phase := phase.toNat }
    else none
  | _ => none

/-- A poll entry's index, 0 to 47 (R107, check 2). -/
def parsePollIx : List Byte → Option PollIx
  | [i] => if h : i.toNat < 48 then some ⟨i.toNat, h⟩ else none
  | _ => none

/-- POLL CHANGE: index, then the definition (section 12.6). -/
def parsePollChange : List Byte → Option (PollIx × PollDef)
  | i :: rest =>
    match parsePollIx [i], parsePollDef rest with
    | some i, some d => some (i, d)
    | _, _ => none
  | [] => none

/-- The addresses 1 to 63. -/
def addresses : List (BitVec 6) := (List.range 63).map fun k => BitVec.ofNat 6 (k + 1)

/-- CLAIM: base, mask, PRIVATE flag, lease, with a match set that holds some address (R118, check 2). -/
def parseClaim : List Byte → Option (BitVec 6 × BitVec 6 × Bool × Nat)
  | [base, mask, priv, lease] =>
    match flagOf priv with
    | none => none
    | some f =>
      let b : BitVec 6 := base.extractLsb' 0 6
      let m : BitVec 6 := mask.extractLsb' 0 6
      if base.toNat ≤ 63 ∧ mask.toNat ≤ 63 ∧ 1 ≤ lease.toNat ∧ addresses.any (matches6 b m) then
        some (b, m, f, lease.toNat)
      else none
  | _ => none

/-- A Reservation Table index, 0 to 7 (R119). -/
def parseResvIx : List Byte → Option ResvIx
  | [i] => if h : i.toNat < 8 then some ⟨i.toNat, h⟩ else none
  | _ => none

/-- One cause set (R138, R139): every value is in range. -/
def parseCauses : List Byte → Option Byte
  | [b] => some b
  | _ => none

/-- One proposal number (R148, R149). -/
def parseNumber : List Byte → Option Byte
  | [b] => some b
  | _ => none

/-- A field rate from its code (section 12.5). -/
def rateOf (b : Byte) : Option Rate :=
  match b.toNat with
  | 0 => some .fast
  | 1 => some .slow
  | _ => none

/-- Four quotas in range (R144). -/
def parseQuotas : List Byte → Option Change
  | [a, b, c, d] =>
    if a.toNat + b.toNat + c.toNat + d.toNat ≤ 128 then some (.quotas #v[a.toNat, b.toNat, c.toNat, d.toNat]) else none
  | _ => none

/-- One value in a range, as the change it makes. -/
def parseRanged (lo hi : Nat) (f : Nat → Change) : List Byte → Option Change
  | [v] => if lo ≤ v.toNat ∧ v.toNat ≤ hi then some (f v.toNat) else none
  | _ => none

/-- One field rate. -/
def parseRate : List Byte → Option Change
  | [r] => (rateOf r).map .fieldRate
  | _ => none

/-- No value. -/
def parseBare (c : Change) (vals : List Byte) : Option Change := if vals = [] then some c else none

/-- PROPOSE: the kind's code, then its values in range (R144, section 12.6). -/
def parseChange : List Byte → Option Change
  | [] => none
  | kind :: vals =>
    if kind = 1 then parseRanged 1 100 .sweepLength vals
    else if kind = 2 then parseRanged 1 48 .pollWindow vals
    else if kind = 3 then parseQuotas vals
    else if kind = 4 then parseRate vals
    else if kind = 5 then parseBare .stop vals
    else if kind = 6 then parseBare .start vals
    else if kind = 7 then parseBare .restart vals
    else none

/-! ### Bodies laid out -/

/-- A span as the 16-bit field that carries it (section 12.2). -/
def Span.word (sp : Span) : Word := sp.countM1 ++ sp.register

def Kind.code : Kind → BitVec 2
  | .read => 0
  | .write => 1
  | .modify => 2
  | .broadcast => 3

/-- A POST body laid out as section 12.2 gives it. -/
def PostBody.bytes (b : PostBody) : List Byte :=
  [b.kind.code.zeroExtend 8,
    BitVec.ofBool b.stopShort ++ BitVec.ofBool b.groupEnd ++ BitVec.ofBool b.note ++ BitVec.ofNat 3 b.budget ++
      BitVec.ofNat 2 b.chain.val,
    b.target.zeroExtend 8] ++
  wordBytes b.span.word ++ wordBytes b.tag ++ [BitVec.ofNat 8 b.deadline] ++ b.data.flatMap wordBytes

/-- A poll definition laid out as section 12.6 gives it. -/
def PollDef.bytes (d : PollDef) : List Byte :=
  [d.target.zeroExtend 8] ++ wordBytes d.span.word ++ [BitVec.ofNat 8 d.period, BitVec.ofNat 8 d.phase]

end Sys2Proof.Machine
end

