-- ==== Sys2Proof/Machine/Images.lean ====
section
/-! DEFINITION. The codes and the images returned to masters (12, sections 12.3, 12.5, 12.6): the note, the snapshot, and the
bodies of the queries. -/

namespace Sys2Proof.Machine

/-- A number as one byte. -/
def byte (n : Nat) : Byte := BitVec.ofNat 8 n

/-- A flag as a byte of its own (section 12.5). -/
def flagByte (b : Bool) : Byte := if b then 1 else 0

/-- A port as a byte (section 12.3). -/
def portByte (p : Port) : Byte := byte p.val

def Outcome.code : Outcome → Byte
  | .done => 1
  | .short => 2
  | .wait => 3
  | .refused => 4
  | .noreply => 5
  | .corrupt => 6
  | .overlong => 7
  | .line => 8

def HaltReason.code : HaltReason → Byte
  | .refused => 1
  | .overlong => 2
  | .exhausted => 3
  | .fenced => 4
  | .expired => 5

def EndKind.code : EndKind → Byte
  | .completed => 0
  | .cancelled => 1
  | .skipped => 2
  | .dropped => 3
  | .damaged => 4

/-- A stored code as it is sent: 0 for absent, and the bits stored where the table gives them no meaning (R178). -/
def Stored.code {α : Type} (f : α → Byte) : Stored α → Byte
  | .absent => 0
  | .known a => f a
  | .other b => b

/-- An optional outcome, 0 for absent (section 12.5). -/
def outcomeByte : Option Outcome → Byte
  | none => 0
  | some o => o.code

/-- The slot states PEEK returns (section 12.5); an ORPHANED slot answers STALE, so it has no code and none is sent. -/
def RecordState.code : RecordState → Byte
  | .queued => 1
  | .active => 2
  | .halted => 3
  | .done => 4
  | .damaged => 5
  | .orphaned => 0

def ChainState.code : ChainState → Byte
  | .empty => 0
  | .ready => 1
  | .busy => 2
  | .halted => 3

def Presence.code : Presence → Byte
  | .unknown => 0
  | .present => 1
  | .silent => 2

def Sched.code : Sched → Byte
  | .running => 0
  | .draining => 1
  | .stopped => 2
  | .faulted => 3

def LineState.code : LineState → Byte
  | .ok => 0
  | .fault => 1

def Rate.code : Rate → Byte
  | .fast => 0
  | .slow => 1

def Verdict.code : Verdict → Byte
  | .adopted => 1
  | .declined => 2
  | .lapsed => 3
  | .withdrawn => 4
  | .void => 5

def Change.code : Change → Byte
  | .sweepLength _ => 1
  | .pollWindow _ => 2
  | .quotas _ => 3
  | .fieldRate _ => 4
  | .stop => 5
  | .start => 6
  | .restart => 7

/-- A change's values as AGREE QUERY carries them: four bytes, as PROPOSE carries them followed by 0 bytes (section 12.6). -/
def Change.values : Change → List Byte
  | .sweepLength ms => [byte ms, 0, 0, 0]
  | .pollWindow w => [byte w, 0, 0, 0]
  | .quotas q => [byte q[0], byte q[1], byte q[2], byte q[3]]
  | .fieldRate r => [r.code, 0, 0, 0]
  | .stop | .start | .restart => [0, 0, 0, 0]

/-- A PROPOSE body laid out as section 12.6 gives it: the kind, then its values. -/
def Change.bytes (c : Change) : List Byte :=
  match c with
  | .sweepLength ms => [c.code, byte ms]
  | .pollWindow w => [c.code, byte w]
  | .quotas q => [c.code, byte q[0], byte q[1], byte q[2], byte q[3]]
  | .fieldRate r => [c.code, r.code]
  | .stop | .start | .restart => [c.code]

/-- A set of ports as a byte (section 12.5). -/
def portSetByte (ps : PortSet) : Byte := ps.zeroExtend 8

/-- The result of a record as form, word count and words (section 12.3); a stored count above 16 is sent as form 0 (R178). -/
def Result.image : Result → List Byte
  | .absent => [0, 0]
  | .words ws => if ws.length ≤ 16 then 1 :: byte ws.length :: ws.flatMap wordBytes else [0, 0]
  | .pair old written => 2 :: 2 :: (wordBytes old ++ wordBytes written)

/-- A note (section 12.3, R133): the record of slot `i` with generation `g` as it stood at its retirement. Bits 7 and 6 of its byte 2,
to which R178 gives no field, are sent 0 (log 28). -/
def noteImage (i : SlotIx) (g : Byte) (r : Record) : List Byte :=
  [byte i.val, g,
    (0 : BitVec 2) ++ BitVec.ofBool r.cancelLate ++ BitVec.ofBool r.cancelPending ++ BitVec.ofNat 2 r.chain.val ++ r.kind.code,
    r.target.zeroExtend 8] ++
  wordBytes r.span.word ++ wordBytes r.tag ++
  [(r.endKind.map EndKind.code).getD 0, r.lastOutcome.code Outcome.code, r.haltReason.code HaltReason.code,
    byte r.attempts, byte r.budgetLeft] ++
  wordBytes r.postedSweep ++ wordBytes (r.completionSweep.getD 0) ++ r.result.image

/-- A snapshot's image (section 12.3, R113, R178): with its value words, or withheld without them. Bits 7 to 3 of its byte 13, to
which R178 gives no field, are sent 0 (log 28). The value words are sent as many as are held (log 32). -/
def snapImage (i : PollIx) (edit : Byte) (b : PollBody) (withheld : Bool) : List Byte :=
  [byte i.val, if b.paused then 2 else 1, b.target.zeroExtend 8] ++ wordBytes b.span.word ++
  [byte b.period, byte b.phase, (b.creator.map portByte).getD 0xFF, edit, byte b.missed, b.snap.srcTarget.zeroExtend 8] ++
  wordBytes b.snap.srcSpan.word ++
  [(0 : BitVec 5) ++ BitVec.ofBool withheld ++ BitVec.ofBool b.snap.stale ++ BitVec.ofBool b.snap.valid] ++
  wordBytes b.snap.seq ++
  [byte b.snap.age, byte b.snap.failRun, outcomeByte b.snap.last] ++
  (if withheld then [] else b.snap.words.flatMap wordBytes)

/-- The STATUS body (R174). -/
def statusImage (s : State) (p : Port) : List Byte :=
  wordBytes Config.partId ++ [Config.revision, s.sched.code, s.line.code] ++ wordBytes s.sweep ++
  [byte s.overruns, flagByte (s.attached p), s.ports[p].session, byte (s.holding p), byte s.quotas[p],
    byte s.reports[p].queue.length, s.reports[p].pending, s.reports[p].enables]

/-- The PEEK body (R11): for a DAMAGED slot the state byte alone. -/
def peekImage (r : Record) : List Byte :=
  match r.state with
  | .damaged => [r.state.code]
  | _ => [r.state.code, byte r.attempts, byte r.budgetLeft, r.lastOutcome.code Outcome.code, r.haltReason.code HaltReason.code]

/-- The CHAIN QUERY body (R41): at most 24 handles from the start position on. -/
def chainImage (s : State) (c : ChainIx) (start : Nat) : List Byte :=
  let ch := s.chains[c]
  [(s.chainState c).code, flagByte ch.hold, byte ch.priority, byte ch.burst, byte ch.age, byte ch.list.length, byte start] ++
  ((ch.list.drop start).take Config.queryHandles).flatMap fun i => [byte i.val, s.slots[i].gen]

/-- The TARGET QUERY body (R59). -/
def targetImage (t : Target) : List Byte :=
  [flagByte t.parity, t.presence.code, byte t.run, flagByte t.lastSweep.isSome] ++ wordBytes (t.lastSweep.getD 0)

/-- One entry of the CLAIM QUERY body (R122, section 12.6). Bits 6 to 3 of a held entry's first byte, to which R179 gives no field,
are sent 0 (log 28). -/
def resvImage : Option Reservation → List Byte
  | none => [0, 0, 0, 0, 0]
  | some r =>
    [(1 : BitVec 1) ++ (0 : BitVec 4) ++ BitVec.ofBool r.priv ++ BitVec.ofNat 2 r.owner.val,
      r.base.zeroExtend 8, r.mask.zeroExtend 8, byte r.lease, byte r.remaining]

/-- The AGREE QUERY body (R152, section 12.6). -/
def agreeImage (s : State) : List Byte :=
  (match s.proposal with
   | none => List.replicate 11 0
   | some pr =>
     [1, pr.number, pr.change.code] ++ pr.change.values ++
     [portByte pr.proposer, portSetByte pr.required, portSetByte pr.confirmed, byte pr.window]) ++
  (match s.decision with
   | none => List.replicate 10 0
   | some d =>
     [1, d.number, d.change.code] ++ d.change.values ++
     [portByte d.proposer, portSetByte d.confirmed, d.verdict.code])

end Sys2Proof.Machine
end

