-- ==== Sys2Proof/Machine/Engine.lean ====
section
/-! DEFINITION. The Field Engine (03): request frames and their CRC-16, starting an exchange, classifying an accepted reply,
and the Target Table's update at an exchange's end. -/

namespace Sys2Proof.Machine

/-- The start delimiter, in transmission order (section 3.2). -/
def delimiter : List Bool := [false, true, true, true, true, true, true, false]

/-- The CRC-16 of field frames: polynomial x^16+x^12+x^5+1, initial value 0xFFFF (R46). -/
def crc16 (bytes : List Byte) : Word := crcBytes 0x1021 0xFFFF bytes

def Op.bit : Op → BitVec 1
  | .read => 0
  | .write => 1

/-- The bytes of a request frame after its delimiter (R45, section 12.4). -/
def Exchange.frameBytes (e : Exchange) : List Byte :=
  let head := (e.target ++ e.op.bit ++ BitVec.ofBool e.parity : Byte) :: wordBytes e.span.word ++ e.send.flatMap wordBytes
  head ++ wordBytes (crc16 head)

/-- The bits of a request frame, delimiter first (R45). -/
def Exchange.frameBits (e : Exchange) : List Bool := delimiter ++ e.frameBytes.flatMap bitsOf

/-- The words received so far, from the reply's bits after its delimiter, header and count byte (R47, R50). -/
def wordsOfBits : List Bool → List Word
  | a0 :: a1 :: a2 :: a3 :: a4 :: a5 :: a6 :: a7 :: b0 :: b1 :: b2 :: b3 :: b4 :: b5 :: b6 :: b7 :: rest =>
    ([b7, b6, b5, b4, b3, b2, b1, b0, a7, a6, a5, a4, a3, a2, a1, a0].foldr
      (fun b (acc : Word) => (acc <<< 1) ||| (if b then 1 else 0)) 0) :: wordsOfBits rest
  | _ => []

/-- A byte from eight bits, most significant first. -/
def byteOfBits (bits : List Bool) : Byte :=
  bits.foldl (fun (acc : Byte) b => (acc <<< 1) ||| (if b then 1 else 0)) 0

/-- The count a reply may carry: the requested count for a READ, 0 for a WRITE (R50, check 3). -/
def Exchange.expected (e : Exchange) : Nat :=
  match e.op with
  | .read => e.span.count
  | .write => 0

/-- The header and count byte have been taken: 24 bits with the delimiter. -/
def replyHeadBits : Nat := 24

/-- The words received (R47): those complete so far, and no more than the count byte gives. -/
def Exchange.received (e : Exchange) : List Word :=
  (wordsOfBits (e.rx.drop replyHeadBits)).take (replyCount (byteOfBits ((e.rx.drop 16).take 8)))

/-- The held outcome a finding gives (R50): CORRUPT for a malformed frame, OVERLONG for a count above the expected one; a count
byte that passes both checks gives none. -/
def heldBy (e : Exchange) : HeldCause → Option Outcome
  | .badDelimiter => some .corrupt
  | .countByte b =>
    if b.extractLsb' 5 3 != 0 then some .corrupt
    else if e.expected < replyCount b then some .overlong
    else none

/-- The classification of an accepted reply, in the order of R52's rows. -/
def classify (e : Exchange) (f : ReplyFrame) : Outcome :=
  if crc16 (f.header :: f.count :: f.words.flatMap wordBytes) ≠ f.crc then .corrupt
  else if f.header.extractLsb' 2 6 ≠ e.target then .corrupt
  else match (f.header.extractLsb' 0 2).toNat with
    | 0 =>
      match e.op with
      | .write => .done
      | .read =>
        if e.phase = .modifyRead ∧ f.words.length = 0 then .corrupt
        else if f.words.length = e.span.count then .done
        else .short
    | 1 => .wait
    | 2 => .refused
    | _ => .corrupt

/-- A reply that can be accepted in this exchange: as long as its count byte says, and not above the expected count (R50). -/
def acceptable (e : Exchange) (f : ReplyFrame) : Bool :=
  (f.count.extractLsb' 5 3 == 0) && (f.words.length == replyCount f.count) && (replyCount f.count ≤ e.expected)

/-- An exchange record at its start event (R47, R48). -/
def newExchange (o : Origin) (ph : ExPhase) (op : Op) (t : BitVec 6) (sp : Span) (parity : Bool) (send : List Word)
    (old : Option Word) : Exchange :=
  { origin := o, phase := ph, op := op, target := t, span := sp, parity := parity, send := send, oldValue := old,
    stage := .preamble, replyStart := false, held := none, count := 0, tx := [], rx := [] }

/-- A record's first exchange (R48, R53, R55): parity from the Target Table for a WRITE, 0 for a READ and a BROADCAST. A record that an
upset left out of the ranges of R1, and whose code a try's end then wrote anew, is tried with its fields as stored: a WRITE frame
carries the whole stored data list beside the stored count, whatever their lengths, and the stored target, 0 among them. The spec is
silent on such a record (R45); this is the model's choice (log 29). -/
def recordExchange (s : State) (i : SlotIx) (r : Record) : Exchange :=
  let o : Origin := .record i s.slots[i].gen
  match r.kind with
  | .read => newExchange o .single .read r.target r.span false [] none
  | .write => newExchange o .single .write r.target r.span (s.parityOf r.target) r.data none
  | .modify => newExchange o .modifyRead .read r.target { r.span with countM1 := 0 } false [] none
  | .broadcast => newExchange o .broadcast .write 0 r.span false r.data none

/-- The value a MODIFY writes: the old value ANDed with the and-mask, then ORed with the or-value (R55). A word that an upset took
away counts as 0 (log 27). -/
def Record.modified (r : Record) (old : Word) : Word := (old &&& r.data.getD 0 0) ||| r.data.getD 1 0

/-- The write phase that follows the read phase `e` of a MODIFY (R55): of the same target and register, with the parity the
Target Table now holds. Its masks are those the record holds at the mid-point (log 27). -/
def writePhase (s : State) (e : Exchange) (r : Record) (old : Word) : Exchange :=
  newExchange e.origin .modifyWrite .write e.target { e.span with countM1 := 0 } (s.parityOf e.target) [r.modified old] (some old)

/-- A poll exchange: a READ of the entry's range, with its edit count at the start (R100). -/
def pollExchange (i : PollIx) (edit : Byte) (b : PollBody) : Exchange :=
  newExchange (.poll i edit) .single .read b.target b.span false [] none

/-- Start an exchange: the engine holds its record (R47). -/
def startExchange (e : Exchange) (s : State) : State := { s with exchange := some e }

/-- Change the exchange in progress. -/
def modExchange (f : Exchange → Exchange) (s : State) : State := { s with exchange := s.exchange.map f }

/-- A Target Table entry after an exchange to it ended with outcome `o`, not LINE (R58). -/
def Target.after (t : Target) (e : Exchange) (o : Outcome) (sweep : Word) : Target :=
  { parity := if e.op = .write ∧ o = .done then !t.parity else t.parity
    presence :=
      if e.replyStart then .present
      else if o = .noreply ∧ t.run + 1 = Config.silentRun then .silent
      else t.presence
    run := if e.replyStart then 0 else if o = .noreply then satInc 15 t.run else t.run
    lastSweep := some sweep }

/-- The Target Table's update at an exchange's end: none for LINE and none for a BROADCAST; TARGET is marked everywhere when
the run reaches 4 from 3 (R53, R58). -/
def updateTarget (e : Exchange) (o : Outcome) (s : State) : State :=
  match targetIx e.target with
  | none => s
  | some t =>
    if o = .line then s
    else
      let s' := { s with targets := modAt s.targets t fun en => en.after e o s.sweep }
      if !e.replyStart ∧ o = .noreply ∧ s.targets[t].run + 1 = Config.silentRun then markAll .target s' else s'

end Sys2Proof.Machine
end

