-- ==== Sys2Proof/Machine/ChainOps.lean ====
section
/-! DEFINITION. The Chain Manager (02, 04): the start of a try, what the end of a try writes into the record, its chain and the
grant, the group skip, and the MODIFY mid-point. -/

namespace Sys2Proof.Machine

/-- A try start for chain `c` (R26): check code, then fence, then the head becomes ACTIVE and its first exchange starts. -/
def tryStart (c : ChainIx) (s : State) : State :=
  match s.head c with
  | none => endGrant s
  | some (i, r) =>
    if !s.slots[i].codeMatches then storeFault (damageSlot i s)
    else if s.fenced (chainPort c) r.kind r.target then endGrant (haltHead c i r .fenced s)
    else startExchange (recordExchange s i r) (putRecord i { r with state := .active } s)

/-- R32's test for a further try of chain `c` within its grant, after `n` completions. -/
def State.mayContinue (s : State) (c : ChainIx) (n : Nat) : Bool :=
  (n < s.chains[c].burst) && (s.chainState c == .ready) && !s.chains[c].hold && !s.expired && (s.sched == .running) &&
  (s.line == .ok)

/-- A completion within the grant: counted, then the next head's try starts in the same grant or the grant ends (R31, R32). A
completion of a chain that holds no grant any more starts nothing. -/
def burstContinue (c : ChainIx) (s : State) : State :=
  match s.grant with
  | some g =>
    if g.chain = c then
      if s.mayContinue c (g.completed + 1) then
        tryStart c { s with grant := some { chain := c, completed := g.completed + 1 } }
      else endGrant s
    else s
  | none => s

/-- How a try ended (R27): with an outcome, or stopped at the MODIFY mid-point (R56). -/
inductive TryEnd where
  | outcome (o : Outcome)
  | midCancel
  | midFault
  | midFence
  deriving DecidableEq, Repr

/-- Attempts and last outcome after a try end (R64, R65). -/
def Record.afterTry (r : Record) (e : TryEnd) : Record :=
  match e with
  | .outcome .line => { r with lastOutcome := .known .line }
  | .outcome o => { r with attempts := satInc 255 r.attempts, lastOutcome := .known o }
  | .midCancel | .midFence => { r with attempts := satInc 255 r.attempts, lastOutcome := .known .done }
  | .midFault => r

/-- The records a SHORT head skips: those behind it up to and including the first with GROUP-END, or to the tail (R30). No code is
verified here (R8), and the GROUP-END of an upset record is read as stored: a DESIGN CHOICE (log 30). -/
def State.groupRest (s : State) : List SlotIx → List SlotIx
  | [] => []
  | i :: rest =>
    match s.record i with
    | some r => if r.groupEnd then [i] else i :: s.groupRest rest
    | none => i :: s.groupRest rest

/-- Retire several slots with one end kind, in order (R30, R40). -/
def retireAll (k : EndKind) (is : List SlotIx) (s : State) : State :=
  is.foldl (fun s i => retireSlot i k s) s

/-- The record leaves its chain completed: freed when it ended DONE with NOTE and cancel-late clear, else retired COMPLETED (R16,
R19). -/
def leaveCompleted (i : SlotIx) (r : Record) (o : Outcome) (s : State) : State :=
  if o = .done ∧ !r.note ∧ !r.cancelLate then freeSlot i (unlist i s) else retire i r .completed s

/-- The rest of the group is skipped behind a SHORT head whose STOP-SHORT flag is set (R30). Only a READ exchange ends SHORT. When the
slot was upset during that exchange the spec is silent: the stored STOP-SHORT and GROUP-END decide, and the stored kind is not read,
which is a DESIGN CHOICE (log 30). -/
def skipGroup (r : Record) (o : Outcome) (s : State) : State :=
  if o = .short ∧ r.stopShort ∧ !r.groupEnd then retireAll .skipped (s.groupRest s.chains[r.home].list) s else s

/-- The record as it completes: with its result, and cancel-late when a cancel was pending (R16, R67). -/
def Record.completed (r : Record) (res : Result) : Record :=
  { r with result := res, cancelLate := r.cancelLate || r.cancelPending }

/-- The record completes: it leaves its chain, a group is skipped behind it (R30), and the completion counts toward the grant
(R27). `r` is the record after its try. -/
def completeRecord (i : SlotIx) (r : Record) (o : Outcome) (res : Result) (s : State) : State :=
  burstContinue r.home (skipGroup (r.completed res) o (leaveCompleted i (r.completed res) o s))

/-- The head stays, QUEUED, and the grant ends (R27). -/
def requeueHead (i : SlotIx) (r : Record) (s : State) : State :=
  endGrant (putRecord i { r with state := .queued } s)

/-- The head stays, HALTED, and the grant ends (R27). -/
def haltAfterTry (i : SlotIx) (r : Record) (why : HaltReason) (s : State) : State :=
  endGrant (haltHead r.home i r why s)

/-- A counted failure of a record with a budget: budget left falls by 1, and at 0 the record halts EXHAUSTED (R66). -/
def spendBudget (i : SlotIx) (r : Record) (s : State) : State :=
  if r.budget = 0 then requeueHead i r s
  else
    let r' := { r with budgetLeft := r.budgetLeft - 1 }
    if r'.budgetLeft = 0 then haltAfterTry i r' .exhausted s else requeueHead i r' s

/-- The end of a try of the ACTIVE record `r` in slot `i` (R16, R27, R63 to R67). No code is verified at a try end (R8): it is applied by
the exchange's outcome and the fields as stored, those of a slot upset during the exchange included, which is a DESIGN CHOICE
(log 30). -/
def applyTryEnd (i : SlotIx) (r : Record) (e : TryEnd) (res : Result) (s : State) : State :=
  let r' := r.afterTry e
  match e with
  | .outcome .done => completeRecord i r' .done res s
  | .outcome .short => completeRecord i r' .short res s
  | .midCancel => endGrant (retire i r' .cancelled s)
  | .outcome .wait => if r.cancelPending then endGrant (retire i r' .cancelled s) else requeueHead i r' s
  | .outcome .line => if r.cancelPending then endGrant (retire i r' .cancelled s) else requeueHead i r' s
  | .outcome .noreply => if r.cancelPending then endGrant (retire i r' .cancelled s) else spendBudget i r' s
  | .outcome .corrupt => if r.cancelPending then endGrant (retire i r' .cancelled s) else spendBudget i r' s
  | .outcome .refused => if r.cancelPending then endGrant (retire i r' .cancelled s) else haltAfterTry i r' .refused s
  | .outcome .overlong => if r.cancelPending then endGrant (retire i r' .cancelled s) else haltAfterTry i r' .overlong s
  | .midFault => requeueHead i r' s
  | .midFence => haltAfterTry i r' .fenced s

/-- The mid-point check of a MODIFY whose read phase `e` ended DONE with one word, for a slot ACTIVE under the handle of `e`'s
origin (R56, tests 2 to 5). The fence is asked about the kind and target the record holds at this event, which an upset since the
try start may have changed: the spec verifies no code here and does not say which it means (log 27). -/
def midPoint (e : Exchange) (i : SlotIx) (r : Record) (old : Word) (s : State) : State :=
  if r.cancelPending then applyTryEnd i r .midCancel .absent s
  else if s.sched = .faulted then applyTryEnd i r .midFault .absent s
  else if s.fenced (chainPort r.home) r.kind r.target then applyTryEnd i r .midFence .absent s
  else startExchange (writePhase s e r old) s

/-- The result a completed exchange hands on (R54, R67). -/
def resultOf (e : Exchange) (o : Outcome) (words : List Word) : Result :=
  match e.phase, e.op, o with
  | .single, .read, .done => .words words
  | .single, .read, .short => .words words
  | .modifyWrite, _, .done => .pair (e.oldValue.getD 0) (e.send.headD 0)
  | _, _, _ => .absent

/-- A chain record's exchange handed to the Chain Manager (R54): only a slot that is ACTIVE under the origin's handle takes the
outcome, an ORPHANED one becomes FREE (R18), and any other is left as it is (R159). -/
def recordOutcome (e : Exchange) (i : SlotIx) (g : Byte) (o : Outcome) (words : List Word) (s : State) : State :=
  match s.record i with
  | none => s
  | some r =>
    if s.slots[i].gen ≠ g then s
    else match r.state with
      | .orphaned => freeSlot i s
      | .active =>
        if e.phase = .modifyRead ∧ o = .done then midPoint e i r (words.headD 0) s
        else applyTryEnd i r (.outcome o) (resultOf e o words) s
      | .queued | .halted | .done | .damaged => s

end Sys2Proof.Machine
end

