-- ==== Sys2Proof/Machine/AgreementOps.lean ====
section
/-! DEFINITION. The Agreement Unit's decisions (09) and the changes they apply (R146), RESTART among them (10, R161). -/

namespace Sys2Proof.Machine

/-- A kind is valid in a scheduler state (R144). -/
def Change.valid (c : Change) (sc : Sched) : Bool :=
  match c with
  | .sweepLength _ | .pollWindow _ | .quotas _ => true
  | .fieldRate _ | .start => sc == .stopped
  | .stop => sc == .running
  | .restart => sc == .faulted

/-- One port as a set. -/
def portSet (p : Port) : PortSet := BitVec.twoPow 4 p.val

/-- Membership in a set of ports. -/
def PortSet.has (ps : PortSet) (p : Port) : Bool := ps.getLsbD p.val

/-- The set without a port. -/
def PortSet.drop (ps : PortSet) (p : Port) : PortSet := ps &&& ~~~ portSet p

/-- The ports attached (R147). -/
def State.attachedSet (s : State) : PortSet :=
  (List.finRange 4).foldl (fun ps p => if s.attached p then ps ||| portSet p else ps) 0

/-- Every port of the required set is in the confirmed set (R145). -/
def Proposal.complete (pr : Proposal) : Bool := pr.required &&& ~~~ pr.confirmed == 0

/-- RESTART's disposal of one slot (R161, step 1): a DAMAGED slot whose owner is attached is retired DAMAGED, one whose owner is
not is freed; any other slot is left. -/
def disposeDamaged (s : State) (i : SlotIx) : State :=
  match s.record i with
  | none => s
  | some r =>
    if r.state = .damaged then
      match r.owner with
      | some p => if s.attached p then retire i r .damaged s else freeSlot i s
      | none => freeSlot i s
    else s

/-- An adopted change applied by the block that owns the setting (R146). -/
def applyChange (c : Change) (s : State) : State :=
  match c with
  | .sweepLength ms => { s with nextSweepLength := some ms }
  | .pollWindow w => { s with nextPollWindow := some w }
  | .quotas q => { s with quotas := q }
  | .fieldRate r => { s with rate := r, run := 0, releasedCount := 0 }
  | .stop => { endGrant s with sched := if s.exchange.isSome then .draining else .stopped }
  | .start => { s with sched := .running }
  | .restart => { (List.finRange 128).foldl disposeDamaged s with sched := .running }

/-- Decide a proposal (R145): the change when ADOPTED, then the decision record, then no proposal, then DECIDED. -/
def decideProposal (pr : Proposal) (v : Verdict) (s : State) : State :=
  let s := if v = .adopted then applyChange pr.change s else s
  raiseAll .decided
    { s with
      decision := some { number := pr.number, change := pr.change, proposer := pr.proposer, confirmed := pr.confirmed, verdict := v }
      proposal := none }

/-- The verdict when every required port has confirmed (R145). -/
def Proposal.finalVerdict (pr : Proposal) (s : State) : Verdict :=
  if pr.change.valid s.sched then .adopted else .void

/-- The Agreement Unit's part of the session end of port `p` (R151). -/
def leaveProposal (p : Port) (s : State) : State :=
  match s.proposal with
  | none => s
  | some pr =>
    if !pr.required.has p then s
    else
      let pr' := { pr with required := pr.required.drop p, confirmed := pr.confirmed.drop p }
      if pr.proposer = p then decideProposal pr' .withdrawn s
      else if pr'.complete then decideProposal pr' (pr'.finalVerdict s) s
      else { s with proposal := some pr' }

/-- The Agreement Unit's reaction to a turnover (R150). -/
def lowerWindow (s : State) : State :=
  match s.proposal with
  | none => s
  | some pr =>
    let pr' := { pr with window := pr.window - 1 }
    if pr'.window = 0 then decideProposal pr' .lapsed s else { s with proposal := some pr' }

end Sys2Proof.Machine
end

