-- ==== Sys2Proof/Machine/SweepOps.lean ====
section
/-! DEFINITION. The Sweep Controller and the Field Arbiter (05): the offer of the bus, the grant, the poll phase, the turnover
with every block's reaction (R84), and what is settled at the end of an event. -/

namespace Sys2Proof.Machine

/-- No exchange is in progress (R47). -/
def State.idle (s : State) : Bool := s.exchange.isNone

/-! ### The Field Arbiter (R92 to R94) -/

/-- A chain is eligible for a grant (R25). -/
def State.eligible (s : State) (c : ChainIx) : Bool :=
  (s.chainState c == .ready) && !s.chains[c].hold && (s.sched == .running) && (s.line == .ok)

/-- A chain's rank (R92). -/
def Chain.rank (ch : Chain) : Nat := if Config.agedAt ≤ ch.age then 4 else ch.priority

/-- Round-robin order: the chain ids after the pointer, wrapping, with the pointer's own last (R93). -/
def roundRobin (ptr : ChainIx) : List ChainIx :=
  (List.range 16).map fun k => ⟨(ptr.val + 1 + k) % 16, Nat.mod_lt _ (by omega)⟩

/-- The first chain of highest rank in the order given (R93). -/
def firstOfHighest (s : State) : List ChainIx → Option ChainIx
  | [] => none
  | c :: rest =>
    match firstOfHighest s rest with
    | none => some c
    | some d => if s.chains[c].rank < s.chains[d].rank then some d else some c

/-- The arbiter's choice among the eligible chains (R93). -/
def State.choice (s : State) : Option ChainIx := firstOfHighest s ((roundRobin s.pointer).filter s.eligible)

/-- A grant of chain `c`: ages, pointer and grant record (R31, R94). -/
def grantTo (c : ChainIx) (s : State) : State :=
  { s with
    chains := tab fun d =>
      if d = c then { s.chains[d] with age := 0 }
      else if s.eligible d then { s.chains[d] with age := satInc 15 s.chains[d].age }
      else s.chains[d]
    pointer := c
    grant := some { chain := c, completed := 0 } }

/-! ### The offer (R86, R87, R90) -/

/-- The conditions of R86. -/
def State.mayOffer (s : State) : Bool :=
  s.idle && s.grant.isNone && !s.expired && (s.sched == .running) && (s.line == .ok)

/-- The offers to the Field Arbiter in one event (R90): a grant whose try start is stopped by a fence is followed by another
offer. Each such grant leaves its chain HALTED, so seventeen rounds are enough for sixteen chains. -/
def offerChains : Nat → State → State
  | 0, s => s
  | fuel + 1, s =>
    if s.mayOffer then
      match s.choice with
      | none => s
      | some c => offerChains fuel (tryStart c (grantTo c s))
    else s

/-- An entry at the front is skipped (R101): its target is SILENT and fewer than 16 turnovers have passed since its last
exchange. -/
def State.skips (s : State) (i : PollIx) : Bool :=
  match s.polls[i].body with
  | none => false
  | some b =>
    match targetIx b.target with
    | none => false
    | some t =>
      (s.targets[t].presence == .silent) &&
      match s.targets[t].lastSweep with
      | some l => (s.sweep - l).toNat < Config.silentRetry
      | none => false

/-- The silent-target skip at the front of the pending list (R101). -/
def skipSilent (s : State) : State := { s with pollPending := s.pollPending.dropWhile s.skips }

/-- The poll phase ends when the engine is idle and the list is empty or the window is reached (R88). -/
def phaseTest (s : State) : State :=
  if s.phase = .poll ∧ s.idle ∧ (s.pollPending = [] ∨ s.pollWindow ≤ s.pollsRun) then { s with phase := .chain } else s

/-- The Poll Unit starts the exchange of the first entry of its list (R87, R100). -/
def startPoll (s : State) : State :=
  match s.pollPending with
  | [] => s
  | i :: rest =>
    match s.polls[i].body with
    | none => { s with pollPending := rest }
    | some b =>
      startExchange (pollExchange i s.polls[i].edit b) { s with pollPending := rest, pollsRun := s.pollsRun + 1 }

/-- The offer of the bus (R86): to the Poll Unit in the poll phase (R87), else to the Field Arbiter (R90). A poll phase whose
skips leave nothing pending ends in this event, and the bus goes on to the arbiter (R88). -/
def offerBus (s : State) : State :=
  let s := phaseTest s
  if s.mayOffer then
    if s.phase = .poll then
      let s := phaseTest (skipSilent s)
      if s.phase = .poll then startPoll s else offerChains 17 s
    else offerChains 17 s
  else s

/-! ### The turnover (R83, R84) -/

/-- The five steps of R83. -/
def advanceSweep (s : State) : State :=
  let len := s.nextSweepLength.getD s.sweepLength
  { s with
    sweep := s.sweep + 1
    sweepLength := len
    nextSweepLength := none
    timerLength := len
    expired := false
    pollWindow := s.nextPollWindow.getD s.pollWindow
    nextPollWindow := none
    pollsRun := 0
    phase := .poll }

/-- An ACTIVE entry is due in a sweep (R98). -/
def PollBody.due (b : PollBody) (sweep : Word) : Bool := !b.paused && sweep.toNat % b.period == b.phase

/-- An entry is in use and due (R98). -/
def State.pollDue (s : State) (i : PollIx) : Bool :=
  match s.polls[i].body with
  | some b => b.due s.sweep
  | none => false

/-- The Poll Unit's reaction to a turnover (R98): every snapshot ages, a due entry is appended in ascending entry number, and one
already pending is counted as missed. -/
def pollTurnover (s : State) : State :=
  { s with
    polls := tab fun i =>
      { s.polls[i] with body := s.polls[i].body.map fun b =>
          { b with
            snap := { b.snap with age := satInc 255 b.snap.age }
            missed := if b.due s.sweep && s.pollPending.contains i then satInc 255 b.missed else b.missed } }
    pollPending :=
      s.pollPending ++ (List.finRange 48).filter fun i => s.pollDue i && !s.pollPending.contains i }

/-- A QUEUED head is past its deadline (R34). -/
def Record.late (r : Record) (sweep : Word) : Bool :=
  (r.state == .queued) && (r.deadline != 0) && (r.deadline < (sweep - r.postedSweep).toNat)

/-- The head of a chain is QUEUED and late (R34). -/
def State.headLate (s : State) (c : ChainIx) : Bool :=
  match s.head c with
  | some (_, r) => r.late s.sweep
  | none => false

/-- The deadline check of one chain's head (R34). The posted sweep of an upset slot is read as stored: a DESIGN CHOICE (log 30). -/
def checkDeadline (s : State) (c : ChainIx) : State :=
  match s.head c with
  | some (i, r) => if r.late s.sweep then haltHead c i r .expired s else s
  | none => s

/-- The Reservation Unit's reaction for one entry (R121): the lease falls by 1, and at 0 the entry is freed and LEASE raised. -/
def lowerLease (s : State) (e : ResvIx) : State :=
  match s.resvs[e] with
  | none => s
  | some r =>
    if r.remaining ≤ 1 then raise .lease r.owner { s with resvs := modAt s.resvs e fun _ => none }
    else { s with resvs := modAt s.resvs e fun _ => some { r with remaining := r.remaining - 1 } }

/-- Every block's reaction to the turnover, on the new sweep (R84). -/
def turnoverReactions (earlier : Marks) (s : State) : State :=
  let s := pendMarks earlier s
  let s := pollTurnover s
  let s := (List.finRange 16).foldl checkDeadline s
  let s := (List.finRange 8).foldl lowerLease s
  lowerWindow s

/-- The turnover event (R83, R84), then the end test of the poll phase and the offer (R83, R88). `earlier` are the marks set
before the event; the state's own marks are those set in it. -/
def turnoverEvent (earlier : Marks) (s : State) : State :=
  offerBus (turnoverReactions earlier (advanceSweep s))

/-- The turnover taken in an event that has set no mark of its own: the timer's expiry with the engine idle (R82). -/
def turnoverNow (s : State) : State := turnoverEvent s.marks (clearMarks s)

/-! ### The end of an event -/

/-- A DRAINING scheduler becomes STOPPED when the engine is idle (R156). -/
def drained (s : State) : State := if s.sched = .draining ∧ s.idle then { s with sched := .stopped } else s

/-- The end of an event in which an exchange ended: DRAINING to STOPPED, then a turnover the expired timer waited for (R82), else
the phase test and the offer (R54, R86). -/
def afterExchange (earlier : Marks) (s : State) : State :=
  let s := drained s
  if s.expired && s.idle then turnoverEvent earlier s else offerBus (restoreMarks earlier s)

end Sys2Proof.Machine
end

