-- ==== Sys2Proof/Machine/ExchangeEnd.lean ====
section
/-! DEFINITION. The end of an exchange (R54): the Target Table, the outcome handed to the block that started it (a chain record
or a poll entry, R103 to R106), and what follows in the same event. -/

namespace Sys2Proof.Machine

/-- A snapshot after an applied outcome other than LINE (R104, R105). The words are those received, and the source is the entry's
identity, also where 256 edits during the exchange made their counts differ: a DESIGN CHOICE (log 32). -/
def Snapshot.after (sn : Snapshot) (b : PollBody) (o : Outcome) (words : List Word) : Snapshot :=
  if o = .done then
    { words := words, srcTarget := b.target, srcSpan := b.span, valid := true, seq := sn.seq + 1, age := 0, failRun := 0,
      stale := false, last := some .done }
  else
    { sn with
      failRun := satInc 15 sn.failRun
      stale := if sn.failRun + 1 = Config.staleRun then true else sn.stale
      last := some o }

/-- The failure run reaches 3 from 2 (R105). -/
def Snapshot.turnsStale (sn : Snapshot) (o : Outcome) : Bool := (o != .done) && (sn.failRun + 1 == Config.staleRun)

/-- A poll outcome handed to the Poll Unit (R103): discarded unless the entry is in use with the edit count of the start; LINE
puts an ACTIVE entry back at the front (R106); the rest is written into the snapshot (R104, R105). That an outcome is applied after
256 edits, which bring the wrapping edit count back to that of the start, is a DESIGN CHOICE (log 32). -/
def pollOutcome (i : PollIx) (edit : Byte) (o : Outcome) (words : List Word) (s : State) : State :=
  match s.polls[i].body with
  | none => s
  | some b =>
    if s.polls[i].edit ≠ edit then s
    else if o = .line then
      if b.paused then s else { s with pollPending := i :: s.pollPending.filter (· != i) }
    else
      let s' := { s with polls := modAt s.polls i fun en => { en with body := some { b with snap := b.snap.after b o words } } }
      if b.snap.turnsStale o then
        match b.creator with
        | some p => mark .stale p s'
        | none => s'
      else s'

/-- The outcome handed to the block that started the exchange (R54). -/
def handOff (e : Exchange) (o : Outcome) (words : List Word) (s : State) : State :=
  match e.origin with
  | .record i g => recordOutcome e i g o words s
  | .poll i edit => pollOutcome i edit o words s

/-- The end event of the exchange in progress, `e`, with outcome `o` and the words received (R54): the engine becomes idle, the
Target Table is updated, the outcome is handed on, and a deferred turnover or an offer follows in the same event. -/
def endExchange (e : Exchange) (o : Outcome) (words : List Word) (s : State) : State :=
  afterExchange s.marks (handOff e o words (updateTarget e o { clearMarks s with exchange := none }))

end Sys2Proof.Machine
end

