-- ==== Sys2Proof/Machine/AgreementRequests.lean ====
section
/-! DEFINITION. The agreement requests (09, section 9.3): PROPOSE, CONFIRM, DECLINE, WITHDRAW and AGREE QUERY. -/

namespace Sys2Proof.Machine

/-- The proposal an accepted PROPOSE makes (R147). -/
def newProposal (p : Port) (c : Change) (s : State) : Proposal :=
  { number := s.lastNumber + 1, change := c, proposer := p, required := s.attachedSet, confirmed := portSet p,
    window := Config.proposalWindow }

/-- Raise PROPOSAL at every required port other than the proposer (R147). -/
def raiseProposal (pr : Proposal) (s : State) : State :=
  (List.finRange 4).foldl (fun s q => if pr.required.has q && q != pr.proposer then raise .proposal q s else s) s

/-- An accepted PROPOSE before any decision (R147). -/
def acceptPropose (p : Port) (c : Change) (s : State) : State :=
  let pr := newProposal p c s
  raiseProposal pr { s with lastNumber := pr.number, proposal := some pr }

/-- A decision by consent, with the offer of the bus that START and RESTART may allow (R86, R145). -/
def decideByConsent (pr : Proposal) (s : State) : State := offerBus (decideProposal pr (pr.finalVerdict s) s)

/-- PROPOSE (R147). -/
def proposeReply (p : Port) (body : List Byte) (s : State) : Reply :=
  whenAttached p (fun s =>
    match parseChange body with
    | none => refuse .badfield s
    | some c =>
      if s.proposal.isSome then refuse .busy s
      else if !c.valid s.sched then refuse .state s
      else
        let pr := newProposal p c s
        let s' := acceptPropose p c s
        if pr.complete then ok [pr.number, (pr.finalVerdict s').code] (decideByConsent pr s')
        else ok [pr.number, 0] s') s

def execPropose (p : Port) (seq : Byte) (body : List Byte) (s : State) : Host.Outcome State Fault Refusal :=
  takeRequest p seq (proposeReply p body) s

/-- The pending proposal named by its number (R148, R149). -/
def withProposal (p : Port) (body : List Byte) (f : Proposal → State → Reply) (s : State) : Reply :=
  whenAttached p (fun s =>
    match parseNumber body with
    | none => refuse .badfield s
    | some n =>
      match s.proposal with
      | none => refuse .nosuch s
      | some pr => if pr.number = n then f pr s else refuse .nosuch s) s

/-- The proposal with a port's consent (R148). -/
def Proposal.confirmedBy (pr : Proposal) (p : Port) : Proposal := { pr with confirmed := pr.confirmed ||| portSet p }

/-- CONFIRM (R148). -/
def confirmReply (p : Port) (body : List Byte) (s : State) : Reply :=
  withProposal p body (fun pr s =>
    if !pr.required.has p then refuse .state s
    else if pr.confirmed.has p then ok [0] s
    else
      let pr' := pr.confirmedBy p
      if pr'.complete then ok [(pr'.finalVerdict s).code] (decideByConsent pr' s)
      else ok [0] { s with proposal := some pr' }) s

def execConfirm (p : Port) (seq : Byte) (body : List Byte) (s : State) : Host.Outcome State Fault Refusal :=
  takeRequest p seq (confirmReply p body) s

/-- DECLINE (R149). -/
def declineReply (p : Port) (body : List Byte) (s : State) : Reply :=
  withProposal p body (fun pr s =>
    if !pr.required.has p then refuse .state s else ok [] (decideProposal pr .declined s)) s

def execDecline (p : Port) (seq : Byte) (body : List Byte) (s : State) : Host.Outcome State Fault Refusal :=
  takeRequest p seq (declineReply p body) s

/-- WITHDRAW (R149). -/
def withdrawReply (p : Port) (body : List Byte) (s : State) : Reply :=
  withProposal p body (fun pr s =>
    if pr.proposer ≠ p then refuse .notowner s else ok [] (decideProposal pr .withdrawn s)) s

def execWithdraw (p : Port) (seq : Byte) (body : List Byte) (s : State) : Host.Outcome State Fault Refusal :=
  takeRequest p seq (withdrawReply p body) s

/-- AGREE QUERY (R152). -/
def agreeQueryReply (p : Port) (body : List Byte) (s : State) : Reply :=
  whenAttached p (fun s => if body ≠ [] then refuse .badfield s else ok (agreeImage s) s) s

def execAgreeQuery (p : Port) (seq : Byte) (body : List Byte) (s : State) : Host.Outcome State Fault Refusal :=
  takeRequest p seq (agreeQueryReply p body) s

end Sys2Proof.Machine
end

