-- ==== Sys2Proof/Machine/ChainRequests.lean ====
section
/-! DEFINITION. The chain requests (02, section 2.6): CHAIN SET, PAUSE, GO, RETRY, DROP, FLUSH and QUERY, and TARGET QUERY
(03, R59). -/

namespace Sys2Proof.Machine

/-- Change one chain's fields. -/
def modChain (c : ChainIx) (f : Chain → Chain) (s : State) : State := { s with chains := modAt s.chains c f }

/-- The checks 1 and 2 of R35 for a request that names a chain alone. -/
def withChain (p : Port) (body : List Byte) (f : ChainIx → State → Reply) (s : State) : Reply :=
  whenAttached p (fun s =>
    match parseChain body with
    | none => refuse .badfield s
    | some c => f (chainIx p c) s) s

/-- CHAIN SET (R36). -/
def chainSetReply (p : Port) (body : List Byte) (s : State) : Reply :=
  whenAttached p (fun s =>
    match parseChainSet body with
    | none => refuse .badfield s
    | some (c, prio, burst) => ok [] (modChain (chainIx p c) (fun ch => { ch with priority := prio, burst := burst }) s)) s

def execChainSet (p : Port) (seq : Byte) (body : List Byte) (s : State) : Host.Outcome State Fault Refusal :=
  takeRequest p seq (chainSetReply p body) s

/-- CHAIN PAUSE (R37). -/
def chainPauseReply (p : Port) (body : List Byte) (s : State) : Reply :=
  withChain p body (fun c s => ok [] (modChain c (fun ch => { ch with hold := true }) s)) s

def execChainPause (p : Port) (seq : Byte) (body : List Byte) (s : State) : Host.Outcome State Fault Refusal :=
  takeRequest p seq (chainPauseReply p body) s

/-- CHAIN GO (R37), with the offer of the bus (R86). -/
def chainGoReply (p : Port) (body : List Byte) (s : State) : Reply :=
  withChain p body (fun c s => ok [] (offerBus (modChain c (fun ch => { ch with hold := false }) s))) s

def execChainGo (p : Port) (seq : Byte) (body : List Byte) (s : State) : Host.Outcome State Fault Refusal :=
  takeRequest p seq (chainGoReply p body) s

/-- Check 3 of R35 for CHAIN RETRY and CHAIN DROP: the chain is HALTED; its head is handed on. -/
def whenHalted (c : ChainIx) (f : SlotIx → Record → State → Reply) (s : State) : Reply :=
  match s.head c with
  | some (i, r) => if r.state = .halted then f i r s else refuse .state s
  | none => refuse .state s

/-- The head returned to QUEUED (R38): budget left reloaded, halt reason absent. -/
def Record.retried (r : Record) : Record :=
  { r with state := .queued, budgetLeft := r.budget, haltReason := .absent }

/-- CHAIN RETRY (R38), with the offer of the bus (R86). -/
def chainRetryReply (p : Port) (body : List Byte) (s : State) : Reply :=
  withChain p body (fun c s => whenHalted c (fun i r s => ok [] (offerBus (putRecord i r.retried s))) s) s

def execChainRetry (p : Port) (seq : Byte) (body : List Byte) (s : State) : Host.Outcome State Fault Refusal :=
  takeRequest p seq (chainRetryReply p body) s

/-- CHAIN DROP (R39), with the offer of the bus to the new head (R86). -/
def chainDropReply (p : Port) (body : List Byte) (s : State) : Reply :=
  withChain p body (fun c s => whenHalted c (fun i r s => ok [] (offerBus (retire i r .dropped s))) s) s

def execChainDrop (p : Port) (seq : Byte) (body : List Byte) (s : State) : Host.Outcome State Fault Refusal :=
  takeRequest p seq (chainDropReply p body) s

/-- CHAIN FLUSH's effect (R40): an ACTIVE head has its cancel-pending flag set as a CANCEL sets it (R15), and every other record is retired CANCELLED in
chain order. Also the number retired and whether an ACTIVE head was left. -/
def flushChain (c : ChainIx) (s : State) : Nat × Bool × State :=
  match s.head c with
  | some (i, r) =>
    if r.state = .active then
      let rest := s.chains[c].list.tail
      (rest.length, true, retireAll .cancelled rest (setCancelPending i r s))
    else (s.chains[c].list.length, false, retireAll .cancelled s.chains[c].list s)
  | none => (0, false, s)

/-- CHAIN FLUSH (R40). -/
def chainFlushReply (p : Port) (body : List Byte) (s : State) : Reply :=
  withChain p body (fun c s =>
    ok [byte (flushChain c s).1, flagByte (flushChain c s).2.1] (flushChain c s).2.2) s

def execChainFlush (p : Port) (seq : Byte) (body : List Byte) (s : State) : Host.Outcome State Fault Refusal :=
  takeRequest p seq (chainFlushReply p body) s

/-- The slots of a chain whose check code does not match (R41). -/
def State.mismatched (s : State) (c : ChainIx) : List SlotIx :=
  s.chains[c].list.filter fun i => !s.slots[i].codeMatches

/-- CHAIN QUERY (R41): every listed slot is verified; any mismatch makes the store fault once for the event (R158). -/
def chainQueryReply (p : Port) (body : List Byte) (s : State) : Reply :=
  whenAttached p (fun s =>
    match parseChainQuery body with
    | none => refuse .badfield s
    | some (c, start) =>
      let c := chainIx p c
      if s.mismatched c = [] then ok (chainImage s c start) s
      else refuse .faulted (storeFault ((s.mismatched c).foldl (fun s i => damageSlot i s) s))) s

def execChainQuery (p : Port) (seq : Byte) (body : List Byte) (s : State) : Host.Outcome State Fault Refusal :=
  takeRequest p seq (chainQueryReply p body) s

/-- TARGET QUERY (R59). -/
def targetQueryReply (p : Port) (body : List Byte) (s : State) : Reply :=
  whenAttached p (fun s =>
    match parseTarget body with
    | none => refuse .badfield s
    | some t => ok (targetImage s.targets[t]) s) s

def execTargetQuery (p : Port) (seq : Byte) (body : List Byte) (s : State) : Host.Outcome State Fault Refusal :=
  takeRequest p seq (targetQueryReply p body) s

end Sys2Proof.Machine
end

