-- ==== Sys2Proof/Machine/LineEvents.lean ====
section
/-! DEFINITION. The events of the field line (03): the course of an exchange from its preamble to its end, and the line
monitor. An event stands for the moment at which its bit periods have been counted (log 14); one that cannot occur in the
exchange's stage changes nothing (log 3). -/

namespace Sys2Proof.Machine

/-- The exchange in progress is in a stage. -/
def State.inStage (s : State) (st : Stage) : Bool :=
  match s.exchange with
  | some e => e.stage == st
  | none => false

/-- PREAMBLE_END (R48): 8 released bit periods counted; the engine drives the request frame (R45). -/
def preambleEnd (s : State) : State :=
  { modExchange (fun e => { e with stage := .sending, count := 0, tx := e.frameBits }) s with run := 0 }

def execPreambleEnd (s : State) : Host.Outcome State Fault Refusal :=
  if s.inStage .preamble then .next (preambleEnd s) else .next s

/-- REQUEST_FRAME_SENT (R49, R53): WINDOW, or GUARD for a BROADCAST; the line is released. -/
def requestFrameSent (s : State) : State :=
  { modExchange (fun e =>
      { e with stage := if e.phase = .broadcast then .guard else .window, count := 0, tx := [] }) s with run := 0 }

def execRequestFrameSent (s : State) : Host.Outcome State Fault Refusal :=
  if s.inStage .sending then .next (requestFrameSent s) else .next s

/-- End the exchange in progress if `f` gives an outcome for it, after the line monitor's run is set. -/
def endWith (f : Exchange → Option (Exchange × Outcome × List Word)) (s : State) : Host.Outcome State Fault Refusal :=
  match s.exchange.bind f with
  | some (e, o, words) => .next (endExchange e o words s)
  | none => .next s

/-- REPLY_WINDOW_EXPIRY (R49): 24 released bit periods in WINDOW; NOREPLY. -/
def windowExpiry (e : Exchange) : Option (Exchange × Outcome × List Word) :=
  if e.stage = .window then some (e, .noreply, []) else none

def execReplyWindowExpiry (s : State) : Host.Outcome State Fault Refusal := endWith windowExpiry s

/-- REPLY_START_BIT (R49): the first driven bit within the window; RECEIVING, with that bit as the delimiter's first. -/
def replyStartBit (s : State) : State :=
  { modExchange (fun e => { e with stage := .receiving, count := 0, rx := [false] }) s with run := 0 }

def execReplyStartBit (s : State) : Host.Outcome State Fault Refusal :=
  if s.inStage .window then .next (replyStartBit s) else .next s

/-- REPLY_START (R50, R51): the delimiter is complete. -/
def replyStart (s : State) : State :=
  { modExchange (fun e => { e with replyStart := true, rx := delimiter }) s with run := 0 }

/-- The engine is taking the delimiter. -/
def State.awaitsDelimiter (s : State) : Bool :=
  match s.exchange with
  | some e => (e.stage == .receiving) && !e.replyStart
  | none => false

def execReplyStart (s : State) : Host.Outcome State Fault Refusal :=
  if s.awaitsDelimiter then .next (replyStart s) else .next s

/-- A finding in RECEIVING (R50): the held outcome and DISCARDING. A count byte comes after a complete delimiter, so the reply
start is detected (R51); a wrong delimiter comes before it. -/
def Exchange.hold (e : Exchange) (c : HeldCause) : Exchange :=
  match heldBy e c with
  | none => e
  | some o =>
    { e with
      stage := .discarding
      held := some o
      replyStart := e.replyStart || (c != .badDelimiter)
      rx := [] }

/-- The finding can be made: RECEIVING, and a delimiter bit only while the delimiter is not complete. -/
def Exchange.finds (e : Exchange) (c : HeldCause) : Bool :=
  (e.stage == .receiving) && (heldBy e c).isSome && !(c == .badDelimiter && e.replyStart)

/-- HELD_OUTCOME (R50). -/
def execHeldOutcome (c : HeldCause) (s : State) : Host.Outcome State Fault Refusal :=
  match s.exchange with
  | some e => if e.finds c then .next { modExchange (fun e => e.hold c) s with run := 0 } else .next s
  | none => .next s

/-- The words an ended exchange hands on: those of a READ that ended DONE or SHORT; the others are discarded (R52). -/
def keptWords (o : Outcome) (f : ReplyFrame) : List Word :=
  match o with
  | .done | .short => f.words
  | .wait | .refused | .noreply | .corrupt | .overlong | .line => []

/-- REPLY_FRAME_RECEIVED (R51, R52): the last CRC bit of an accepted reply. -/
def replyReceived (f : ReplyFrame) (e : Exchange) : Option (Exchange × Outcome × List Word) :=
  if e.stage = .receiving ∧ acceptable e f then
    some ({ e with replyStart := true }, classify e f, keptWords (classify e f) f)
  else none

def execReplyFrameReceived (f : ReplyFrame) (s : State) : Host.Outcome State Fault Refusal :=
  endWith (replyReceived f) { s with run := if (s.exchange.bind (replyReceived f)).isSome then 0 else s.run }

/-- DISCARDING_END (R50): the first released bit period in DISCARDING ends the exchange with its held outcome; one inside a
frame in RECEIVING makes it malformed and ends it CORRUPT. -/
def discardEnd (e : Exchange) : Option (Exchange × Outcome × List Word) :=
  match e.stage with
  | .discarding => some (e, e.held.getD .corrupt, [])
  | .receiving => some (e, .corrupt, [])
  | .preamble | .sending | .window | .guard => none

def execDiscardingEnd (s : State) : Host.Outcome State Fault Refusal :=
  endWith discardEnd { s with run := if (s.exchange.bind discardEnd).isSome then 0 else s.run }

/-- BROADCAST_GUARD_END (R53): the guard has passed; DONE. -/
def guardEnd (e : Exchange) : Option (Exchange × Outcome × List Word) :=
  if e.stage = .guard then some (e, .done, []) else none

def execBroadcastGuardEnd (s : State) : Host.Outcome State Fault Refusal := endWith guardEnd s

/-- LINE_FAULT (R60, R74, R162): the monitor enters LINE FAULT, FAULT is raised at every attached port, and an exchange in
progress, in any stage, ends LINE. -/
def execLineFault (s : State) : Host.Outcome State Fault Refusal :=
  if s.line = .fault then .next s
  else
    let s := raiseAll .fault { s with line := .fault, run := Config.lineFaultBits, releasedCount := 0 }
    match s.exchange with
    | some e => .next (endExchange e .line [] s)
    | none => .next s

/-- LINE_OK (R61, R91): 256 released bit periods in LINE FAULT; the bus is offered. -/
def execLineOk (s : State) : Host.Outcome State Fault Refusal :=
  if s.line = .fault then .next (offerBus { s with line := .ok, run := 0, releasedCount := 0 }) else .next s

end Sys2Proof.Machine
end

