-- ==== Sys2Proof/Machine/PollRequests.lean ====
section
/-! DEFINITION. The poll and snapshot requests (06, section 6.4): POLL CREATE, CHANGE, PAUSE, RESUME, DELETE, ADOPT and
SNAP READ. -/

namespace Sys2Proof.Machine

/-- Change one entry of the Poll Plan. -/
def modPoll (i : PollIx) (f : PollEntry → PollEntry) (s : State) : State := { s with polls := modAt s.polls i f }

/-- Checks 1 to 3 of R107 for a request that names an entry alone. -/
def withEntry (p : Port) (body : List Byte) (f : PollIx → PollBody → State → Reply) (s : State) : Reply :=
  whenAttached p (fun s =>
    match parsePollIx body with
    | none => refuse .badfield s
    | some i =>
      match s.polls[i].body with
      | none => refuse .nosuch s
      | some b => f i b s) s

/-- Check 4 of R107: the entry's creator is the requesting port. -/
def asCreator (p : Port) (b : PollBody) (f : State → Reply) (s : State) : Reply :=
  if b.creator = some p then f s else refuse .notowner s

/-- An in-use entry other than `except` with the identity of a definition (R97, R108, R109). -/
def State.sameIdentity (s : State) (d : PollDef) (except : Option PollIx) : Option PollIx :=
  (List.finRange 48).find? fun i =>
    (some i != except) &&
    match s.polls[i].body with
    | some b => b.target == d.target && b.span == d.span
    | none => false

/-- A fresh snapshot at POLL CREATE (R102). -/
def Snapshot.fresh (d : PollDef) : Snapshot :=
  { words := List.replicate d.span.count 0, srcTarget := d.target, srcSpan := d.span, valid := false, seq := 0, age := 0,
    failRun := 0, stale := false, last := none }

/-- A new entry's contents (R108). -/
def PollDef.body (d : PollDef) (p : Port) : PollBody :=
  { paused := false, target := d.target, span := d.span, period := d.period, phase := d.phase, creator := some p, missed := 0,
    snap := Snapshot.fresh d }

/-- The lowest-numbered FREE entry (R108). -/
def State.lowestFreePoll (s : State) : Option PollIx :=
  (List.finRange 48).find? fun i => s.polls[i].body.isNone

/-- POLL CREATE (R108). -/
def pollCreateReply (p : Port) (body : List Byte) (s : State) : Reply :=
  whenAttached p (fun s =>
    match parsePollDef body with
    | none => refuse .badfield s
    | some d =>
      if s.withheld p d.target then refuse .fenced s
      else match s.sameIdentity d none with
        | some j => { code := .exist, body := [byte j.val], state := s }
        | none =>
          match s.lowestFreePoll with
          | none => refuse .full s
          | some i => ok [byte i.val] (modPoll i (fun en => { edit := en.edit + 1, body := some (d.body p) }) s)) s

def execPollCreate (p : Port) (seq : Byte) (body : List Byte) (s : State) : Host.Outcome State Fault Refusal :=
  takeRequest p seq (pollCreateReply p body) s

/-- An entry under a new definition (R109). -/
def PollBody.redefined (b : PollBody) (d : PollDef) : PollBody :=
  { b with target := d.target, span := d.span, period := d.period, phase := d.phase, snap := { b.snap with valid := false } }

/-- POLL CHANGE (R107, R109). -/
def pollChangeReply (p : Port) (body : List Byte) (s : State) : Reply :=
  whenAttached p (fun s =>
    match parsePollChange body with
    | none => refuse .badfield s
    | some (i, d) =>
      match s.polls[i].body with
      | none => refuse .nosuch s
      | some b =>
        asCreator p b (fun s =>
          match s.sameIdentity d (some i) with
          | some j => { code := .exist, body := [byte j.val], state := s }
          | none => ok [] (modPoll i (fun en => { edit := en.edit + 1, body := some (b.redefined d) }) s)) s) s

def execPollChange (p : Port) (seq : Byte) (body : List Byte) (s : State) : Host.Outcome State Fault Refusal :=
  takeRequest p seq (pollChangeReply p body) s

/-- Take an entry out of the pending list; a poll phase left with nothing pending on an idle engine ends (R88, R99). -/
def unpend (i : PollIx) (s : State) : State :=
  phaseTest { s with pollPending := s.pollPending.filter (· != i) }

/-- POLL PAUSE (R110). -/
def pollPauseReply (p : Port) (body : List Byte) (s : State) : Reply :=
  withEntry p body (fun i b s =>
    asCreator p b (fun s =>
      if b.paused then ok [] s
      else ok [] (unpend i (modPoll i (fun en => { en with body := some { b with paused := true } }) s))) s) s

def execPollPause (p : Port) (seq : Byte) (body : List Byte) (s : State) : Host.Outcome State Fault Refusal :=
  takeRequest p seq (pollPauseReply p body) s

/-- POLL RESUME (R110). -/
def pollResumeReply (p : Port) (body : List Byte) (s : State) : Reply :=
  withEntry p body (fun i b s =>
    asCreator p b (fun s => ok [] (modPoll i (fun en => { en with body := some { b with paused := false } }) s)) s) s

def execPollResume (p : Port) (seq : Byte) (body : List Byte) (s : State) : Host.Outcome State Fault Refusal :=
  takeRequest p seq (pollResumeReply p body) s

/-- POLL DELETE (R111). -/
def pollDeleteReply (p : Port) (body : List Byte) (s : State) : Reply :=
  withEntry p body (fun i b s =>
    asCreator p b (fun s => ok [] (unpend i (modPoll i (fun en => { edit := en.edit + 1, body := none }) s))) s) s

def execPollDelete (p : Port) (seq : Byte) (body : List Byte) (s : State) : Host.Outcome State Fault Refusal :=
  takeRequest p seq (pollDeleteReply p body) s

/-- POLL ADOPT (R112). -/
def pollAdoptReply (p : Port) (body : List Byte) (s : State) : Reply :=
  withEntry p body (fun i b s =>
    if b.creator = none then ok [] (modPoll i (fun en => { en with body := some { b with creator := some p } }) s)
    else refuse .state s) s

def execPollAdopt (p : Port) (seq : Byte) (body : List Byte) (s : State) : Host.Outcome State Fault Refusal :=
  takeRequest p seq (pollAdoptReply p body) s

/-- SNAP READ (R113): FENCED carries the image less the value words. -/
def snapReadReply (p : Port) (body : List Byte) (s : State) : Reply :=
  withEntry p body (fun i b s =>
    if s.withheld p b.target || s.withheld p b.snap.srcTarget then
      { code := .fenced, body := snapImage i s.polls[i].edit b true, state := s }
    else ok (snapImage i s.polls[i].edit b false) s) s

def execSnapRead (p : Port) (seq : Byte) (body : List Byte) (s : State) : Host.Outcome State Fault Refusal :=
  takeRequest p seq (snapReadReply p body) s

end Sys2Proof.Machine
end

