-- ==== Sys2Proof/Machine/ReportRequests.lean ====
section
/-! DEFINITION. FETCH and the notification requests (08, sections 8.2, 8.5): FETCH, NOTIFY SET and NOTIFY ACK. -/

namespace Sys2Proof.Machine

/-- FETCH (R132): the note of the oldest slot of the port's queue, which is freed; a mismatched code is a store fault (R158). -/
def fetchReply (p : Port) (body : List Byte) (s : State) : Reply :=
  whenAttached p (fun s =>
    if body ≠ [] then refuse .badfield s
    else match s.reports[p].queue with
      | [] => refuse .empty s
      | i :: _ =>
        match s.record i with
        | none => refuse .empty s
        | some r =>
          if s.slots[i].codeMatches then ok (noteImage i s.slots[i].gen r) (freeSlot i (unlist i s))
          else refuse .faulted (storeFault (damageSlot i s))) s

def execFetch (p : Port) (seq : Byte) (body : List Byte) (s : State) : Host.Outcome State Fault Refusal :=
  takeRequest p seq (fetchReply p body) s

/-- The body of the notification answers: the pending flags and the enables, as they stand (R138, R139). -/
def causesBody (s : State) (p : Port) : List Byte := [s.reports[p].pending, s.reports[p].enables]

/-- Change one port's report state. -/
def modReport (p : Port) (f : Report → Report) (s : State) : State := { s with reports := modAt s.reports p f }

/-- NOTIFY SET (R138). -/
def notifySetReply (p : Port) (body : List Byte) (s : State) : Reply :=
  whenAttached p (fun s =>
    match parseCauses body with
    | none => refuse .badfield s
    | some b =>
      let s' := modReport p (fun r => { r with enables := b }) s
      ok (causesBody s' p) s') s

def execNotifySet (p : Port) (seq : Byte) (body : List Byte) (s : State) : Host.Outcome State Fault Refusal :=
  takeRequest p seq (notifySetReply p body) s

/-- NOTIFY ACK (R139). -/
def notifyAckReply (p : Port) (body : List Byte) (s : State) : Reply :=
  whenAttached p (fun s =>
    match parseCauses body with
    | none => refuse .badfield s
    | some b =>
      let s' := modReport p (fun r => { r with pending := r.pending &&& ~~~ b }) s
      ok (causesBody s' p) s') s

def execNotifyAck (p : Port) (seq : Byte) (body : List Byte) (s : State) : Host.Outcome State Fault Refusal :=
  takeRequest p seq (notifyAckReply p body) s

end Sys2Proof.Machine
end

