-- ==== Sys2Proof/Machine/ReservationRequests.lean ====
section
/-! DEFINITION. The reservation requests (07, section 7.2): CLAIM, RENEW, RELEASE and CLAIM QUERY. -/

namespace Sys2Proof.Machine

/-- Write one entry of the Reservation Table. -/
def setResv (e : ResvIx) (r : Option Reservation) (s : State) : State := { s with resvs := modAt s.resvs e fun _ => r }

/-- The claimed pattern shares an address with a held entry of another port (R118, check 3). -/
def State.conflicts (s : State) (p : Port) (base mask : BitVec 6) : Bool :=
  s.otherClaim p fun r => addresses.any fun t => matches6 base mask t && matches6 r.base r.mask t

/-- The lowest-numbered FREE entry (R118). -/
def State.lowestFreeResv (s : State) : Option ResvIx := (List.finRange 8).find? fun e => s.resvs[e].isNone

/-- CLAIM (R118). -/
def claimReply (p : Port) (body : List Byte) (s : State) : Reply :=
  whenAttached p (fun s =>
    match parseClaim body with
    | none => refuse .badfield s
    | some (base, mask, priv, lease) =>
      if s.conflicts p base mask then refuse .conflict s
      else match s.lowestFreeResv with
        | none => refuse .full s
        | some e =>
          ok [byte e.val]
            (setResv e (some { owner := p, base := base, mask := mask, priv := priv, lease := lease, remaining := lease }) s)) s

def execClaim (p : Port) (seq : Byte) (body : List Byte) (s : State) : Host.Outcome State Fault Refusal :=
  takeRequest p seq (claimReply p body) s

/-- The checks of RENEW and RELEASE (R119, R120). -/
def withResv (p : Port) (body : List Byte) (f : ResvIx → Reservation → State → Reply) (s : State) : Reply :=
  whenAttached p (fun s =>
    match parseResvIx body with
    | none => refuse .badfield s
    | some e =>
      match s.resvs[e] with
      | none => refuse .nosuch s
      | some r => if r.owner = p then f e r s else refuse .notowner s) s

/-- RENEW (R119). -/
def renewReply (p : Port) (body : List Byte) (s : State) : Reply :=
  withResv p body (fun e r s => ok [] (setResv e (some { r with remaining := r.lease }) s)) s

def execRenew (p : Port) (seq : Byte) (body : List Byte) (s : State) : Host.Outcome State Fault Refusal :=
  takeRequest p seq (renewReply p body) s

/-- RELEASE (R120). -/
def releaseReply (p : Port) (body : List Byte) (s : State) : Reply :=
  withResv p body (fun e _ s => ok [] (setResv e none s)) s

def execRelease (p : Port) (seq : Byte) (body : List Byte) (s : State) : Host.Outcome State Fault Refusal :=
  takeRequest p seq (releaseReply p body) s

/-- CLAIM QUERY (R122). -/
def claimQueryReply (p : Port) (body : List Byte) (s : State) : Reply :=
  whenAttached p (fun s =>
    if body ≠ [] then refuse .badfield s
    else ok ((List.finRange 8).flatMap fun e => resvImage s.resvs[e]) s) s

def execClaimQuery (p : Port) (seq : Byte) (body : List Byte) (s : State) : Host.Outcome State Fault Refusal :=
  takeRequest p seq (claimQueryReply p body) s

end Sys2Proof.Machine
end

