-- ==== Sys2Proof/Machine/Sessions.lean ====
section
/-! DEFINITION. Power-on, the pins of a port, its transactions and its sessions (11): POWER_ON, SEL_ASSERT, SEL_RELEASE,
PRST_ASSERT, PRST_DEASSERT, RESPONSE_SENT, FRAME, UNKNOWN, ATTACH, DETACH and STATUS. An event that cannot occur in the state
changes nothing (log 3). -/

namespace Sys2Proof.Machine

/-- Change one port's interface. -/
def modPort (p : Port) (f : PortIf → PortIf) (s : State) : State := { s with ports := modAt s.ports p f }

/-- POWER_ON (R3, R20, R43, R62, R96, R115, R127, R142, R153, R163, R175): every block takes its power-on state; each port's
transaction state follows the levels of its pins (R164). The pins, the waiting commands and wire inputs are the outside's, and
the count of free values consumed is the model's (logs 6, 9). -/
def powerOn (s : State) : State :=
  { State.reset with
    ports := tab fun p => PortIf.powerOn s.ports[p].sel s.ports[p].prst
    fresh := s.fresh
    pending := s.pending
    wires := s.wires }

def execPowerOn (s : State) : Host.Outcome State Fault Refusal := .next (powerOn s)

/-- Assertion of SEL: in WAITING it begins a select period (R164); in RESET HELD the port takes no frame whatever SEL does
(R172); a SEL already held makes no edge (log 3). From the edge on SDO is driven, with 0x00 in RECEIVING and RESET HELD (R164,
R172). -/
def PortIf.selAssert (q : PortIf) : PortIf :=
  { q with
    sel := true
    txn := if q.txn = .waiting then .receiving else q.txn
    rx := if q.txn = .waiting then [] else q.rx
    sdo := if q.sel then q.sdo else some 0 }

def execSelAssert (p : Port) (s : State) : Host.Outcome State Fault Refusal := .next (modPort p PortIf.selAssert s)

/-- Release of SEL: the port returns to WAITING, its partial frame or the rest of its response lost (R164, R168); SDO is no
longer driven (R164). In RESET HELD it stays there (R172). -/
def PortIf.selRelease (q : PortIf) : PortIf :=
  { q with sel := false, txn := if q.txn = .resetHeld then .resetHeld else .waiting, rx := [], answer := none, sdo := none }

def execSelRelease (p : Port) (s : State) : Host.Outcome State Fault Refusal := .next (modPort p PortIf.selRelease s)

/-! ### Session end (R173) -/

/-- A slot at the session end of its owner `p` (R17); a slot not owned by `p` is left. The code of a slot that is freed is held as
matching, as `freeSlot` holds it (DESIGN CHOICE, log 5). -/
def Slot.sessionEnd (p : Port) (sl : Slot) : Slot :=
  match sl.record with
  | none => sl
  | some r =>
    if r.owner ≠ some p then sl
    else match r.state with
      | .queued | .halted | .done => { gen := sl.gen + 1, record := none, codeMatches := true }
      | .active => { sl with record := some { r with state := .orphaned }, codeMatches := true }
      | .orphaned => sl
      | .damaged => { sl with record := some { r with owner := none }, codeMatches := true }

/-- A poll entry at the session end of port `p` (R114). -/
def PollEntry.sessionEnd (p : Port) (en : PollEntry) : PollEntry :=
  { en with body := en.body.map fun b => { b with creator := if b.creator = some p then none else b.creator } }

/-- The session end of port `p`, block by block (R173): R17, R42, R141, R126, R114, then R151, which is the one part that reads
another's result. -/
def sessionEnd (p : Port) (s : State) : State :=
  leaveProposal p
    { s with
      ports := modAt s.ports p fun q => { q with attached := false }
      slots := tab fun i => s.slots[i].sessionEnd p
      chains := tab fun c => if chainPort c = p then Chain.powerOn else s.chains[c]
      grant := s.grant.filter fun g => chainPort g.chain != p
      reports := modAt s.reports p fun _ => Report.powerOn
      resvs := tab fun e => s.resvs[e].filter fun r => r.owner != p
      polls := tab fun i => s.polls[i].sessionEnd p }

/-- The port's part of a PRST assertion (R172): RESET HELD, the partial frame discarded, the response abandoned; SDO drives 0x00
while SEL is held. -/
def PortIf.prstAssert (q : PortIf) : PortIf :=
  { q with prst := true, txn := .resetHeld, rx := [], answer := none, sdo := if q.sel then some 0 else none }

/-- PRST_ASSERT (R172, R173): the session of an ATTACHED port ends in the same event, and the bus may be offered (R86). -/
def execPrstAssert (p : Port) (s : State) : Host.Outcome State Fault Refusal :=
  if s.attached p then .next (offerBus (sessionEnd p (modPort p PortIf.prstAssert s)))
  else .next (modPort p PortIf.prstAssert s)

/-- Deassertion of PRST: WAITING if SEL is released, SPENT if it is held (R164, R172). -/
def PortIf.prstDeassert (q : PortIf) : PortIf :=
  { q with prst := false, txn := if q.txn = .resetHeld then (if q.sel then .spent else .waiting) else q.txn }

def execPrstDeassert (p : Port) (s : State) : Host.Outcome State Fault Refusal := .next (modPort p PortIf.prstDeassert s)

/-- The last bit of the response's CRC-8: the port enters SPENT (R167). -/
def PortIf.responseSent (q : PortIf) : PortIf :=
  if q.txn = .answering then { q with txn := .spent, answer := none } else q

def execResponseSent (p : Port) (s : State) : Host.Outcome State Fault Refusal := .next (modPort p PortIf.responseSent s)

/-! ### Frames refused before any request check (R166) -/

/-- FRAME (R166, check 1): answered FRAME with the sequence byte received, or 0 (R167); no block changes. Bytes that are not a
complete frame failing check 1 are not this event (log 3). -/
def execFrame (p : Port) (bytes : List Byte) (s : State) : Host.Outcome State Fault Refusal :=
  if frameComplete bytes && !frameGood bytes then takeRequest p (echoSeq bytes) (refuse .frame) s else .next s

/-- UNKNOWN (R166, check 2): answered UNKNOWN; no block changes. A code of the catalogue is not this event (log 3). -/
def execUnknown (p : Port) (code seq : Byte) (body : List Byte) (s : State) : Host.Outcome State Fault Refusal :=
  if (requestOf code p seq body).isNone then takeRequest p seq (refuse .unknown) s else .next s

/-! ### ATTACH, DETACH, STATUS -/

/-- ATTACH (R170): a non-empty body is BADFIELD whichever the session state. -/
def attachReply (p : Port) (body : List Byte) (s : State) : Reply :=
  if body ≠ [] then refuse .badfield s
  else if s.attached p then refuse .state s
  else ok [s.ports[p].session + 1] (modPort p (fun q => { q with attached := true, session := q.session + 1 }) s)

def execAttach (p : Port) (seq : Byte) (body : List Byte) (s : State) : Host.Outcome State Fault Refusal :=
  takeRequest p seq (attachReply p body) s

/-- DETACH (R171): the session ends in the same event (R173), and the bus may be offered (R86). -/
def detachReply (p : Port) (body : List Byte) (s : State) : Reply :=
  whenAttached p (fun s =>
    if body ≠ [] then refuse .badfield s
    else ok [s.ports[p].session] (offerBus (sessionEnd p s))) s

def execDetach (p : Port) (seq : Byte) (body : List Byte) (s : State) : Host.Outcome State Fault Refusal :=
  takeRequest p seq (detachReply p body) s

/-- STATUS (R174): taken from an ATTACHED or a DETACHED port. -/
def statusReply (p : Port) (body : List Byte) (s : State) : Reply :=
  if body ≠ [] then refuse .badfield s else ok (statusImage s p) s

def execStatus (p : Port) (seq : Byte) (body : List Byte) (s : State) : Host.Outcome State Fault Refusal :=
  takeRequest p seq (statusReply p body) s

end Sys2Proof.Machine
end

