-- ==== Sys2Proof/Machine/StoreRequests.lean ====
section
/-! DEFINITION. The requests of the Transfer Store (01): POST, PEEK and CANCEL. -/

namespace Sys2Proof.Machine

/-- The record an accepted POST makes (R10). -/
def PostBody.record (b : PostBody) (p : Port) (sweep : Word) : Record :=
  { kind := b.kind, target := b.target, span := b.span, data := b.data, chain := b.chain, tag := b.tag,
    budget := b.budget, deadline := b.deadline, note := b.note, groupEnd := b.groupEnd, stopShort := b.stopShort,
    owner := some p, state := .queued, postedSweep := sweep, attempts := 0, budgetLeft := b.budget,
    lastOutcome := .absent, haltReason := .absent, cancelPending := false, result := .absent, endKind := none,
    cancelLate := false, completionSweep := none }

/-- An accepted POST: the slot is filled and appended to its chain in one event (R10, R23). -/
def acceptPost (p : Port) (b : PostBody) (i : SlotIx) (s : State) : State :=
  appendChain (chainIx p b.chain) i (putRecord i (b.record p s.sweep) s)

/-- POST (R9): its six checks in order, then acceptance (R10) with the handle as answer (R177), and the offer of the bus (R86). -/
def postReply (p : Port) (body : List Byte) (s : State) : Reply :=
  whenAttached p (fun s =>
    match parsePost body with
    | none => refuse .badfield s
    | some b =>
      if s.sched = .faulted then refuse .faulted s
      else if s.fenced p b.kind b.target then refuse .fenced s
      else if s.quotas[p] ≤ s.holding p then refuse .quota s
      else match s.lowestFree with
        | none => refuse .full s
        | some i => ok [byte i.val, s.slots[i].gen] (offerBus (acceptPost p b i s))) s

def execPost (p : Port) (seq : Byte) (body : List Byte) (s : State) : Host.Outcome State Fault Refusal :=
  takeRequest p seq (postReply p body) s

/-- The checks of R6 on a request that names a record by its handle; a record that passes is handed to `f` with its slot. -/
def withHandle (p : Port) (body : List Byte) (f : SlotIx → Record → State → Reply) (s : State) : Reply :=
  whenAttached p (fun s =>
    match parseHandle body with
    | none => refuse .badfield s
    | some (i, g) =>
      match s.record i with
      | none => refuse .stale s
      | some r =>
        if r.state = .orphaned ∨ r.owner = none ∨ s.slots[i].gen ≠ g then refuse .stale s
        else if r.owner ≠ some p then refuse .notowner s
        else f i r s) s

/-- The rest of PEEK (R11): the code of a slot not DAMAGED is verified (R8); a mismatch is a store fault (R158). -/
def peekRecord (i : SlotIx) (r : Record) (s : State) : Reply :=
  if r.state ≠ .damaged ∧ !s.slots[i].codeMatches then refuse .faulted (storeFault (damageSlot i s))
  else ok (peekImage r) s

def peekReply (p : Port) (body : List Byte) (s : State) : Reply := withHandle p body peekRecord s

def execPeek (p : Port) (seq : Byte) (body : List Byte) (s : State) : Host.Outcome State Fault Refusal :=
  takeRequest p seq (peekReply p body) s

/-- The rest of CANCEL, by the record's state (R12 to R15). A QUEUED or HALTED record is retired CANCELLED, and the bus may be
offered to the chain's new head (R86). -/
def cancelRecord (i : SlotIx) (r : Record) (s : State) : Reply :=
  match r.state with
  | .queued | .halted => ok [] (offerBus (retire i r .cancelled s))
  | .active => ok [] (setCancelPending i r s)
  | .done | .damaged | .orphaned => refuse .state s

def cancelReply (p : Port) (body : List Byte) (s : State) : Reply := withHandle p body cancelRecord s

def execCancel (p : Port) (seq : Byte) (body : List Byte) (s : State) : Host.Outcome State Fault Refusal :=
  takeRequest p seq (cancelReply p body) s

end Sys2Proof.Machine
end

