-- ==== Sys2Proof/Machine/SweepEvents.lean ====
section
/-! DEFINITION. The events of the sweep timer (05): SWEEP_TIMER_EXPIRY and TURNOVER, and the four reactions the table names by
themselves. The turnover is one event in which every block reacts (R84), and it waits for the engine to be idle (R82): a command
named after a reaction is the turnover at which that reaction takes place, and where it would not take place the event does
not occur and changes nothing (logs 3, 4). -/

namespace Sys2Proof.Machine

/-- An overrun (R81). -/
def overrun (s : State) : State := { endGrant s with expired := true, overruns := satInc 255 s.overruns }

/-- SWEEP_TIMER_EXPIRY (R80 to R82): the turnover if the engine is idle, else an overrun. A timer that has expired and waits for
its turnover does not expire again (log 3). -/
def execSweepTimerExpiry (s : State) : Host.Outcome State Fault Refusal :=
  if s.idle then .next (turnoverNow s) else if s.expired then .next s else .next (overrun s)

/-- TURNOVER (R82, R83): taken when the engine is idle. -/
def execTurnover (s : State) : Host.Outcome State Fault Refusal := if s.idle then .next (turnoverNow s) else .next s

/-- HEAD_DEADLINE_EXPIRY (R34): the turnover after which chain `c`'s QUEUED head is past its deadline. -/
def execHeadDeadlineExpiry (c : ChainIx) (s : State) : Host.Outcome State Fault Refusal :=
  if s.idle && (advanceSweep s).headLate c then .next (turnoverNow s) else .next s

/-- The lease of an entry ends at the next turnover (R121). -/
def State.leaseEnds (s : State) (e : ResvIx) : Bool :=
  match s.resvs[e] with
  | some r => r.remaining ≤ 1
  | none => false

/-- LEASE_EXPIRY (R121): the turnover that brings entry `e`'s lease remaining to 0. -/
def execLeaseExpiry (e : ResvIx) (s : State) : Host.Outcome State Fault Refusal :=
  if s.idle && s.leaseEnds e then .next (turnoverNow s) else .next s

/-- The pending proposal lapses at the next turnover (R150). -/
def State.lapses (s : State) : Bool :=
  match s.proposal with
  | some pr => pr.window ≤ 1
  | none => false

/-- PROPOSAL_LAPSED (R150): the turnover that brings the proposal window to 0. -/
def execProposalLapsed (s : State) : Host.Outcome State Fault Refusal :=
  if s.idle && s.lapses then .next (turnoverNow s) else .next s

/-- POLL_DUE (R98): the turnover at which entry `i` is due. -/
def execPollDue (i : PollIx) (s : State) : Host.Outcome State Fault Refusal :=
  if s.idle && (advanceSweep s).pollDue i then .next (turnoverNow s) else .next s

end Sys2Proof.Machine
end

