-- ==== Sys2Proof/Machine/Dispatch.lean ====
section
/-! DEFINITION. One arm for each command: its meaning, on everything but the queue. -/

namespace Sys2Proof.Machine

def exec (i : Instr) (s : State) : Host.Outcome State Fault Refusal :=
  match i with
  | .powerOn => Sys2Proof.Machine.execPowerOn s
  | .selAssert p => Sys2Proof.Machine.execSelAssert p s
  | .selRelease p => Sys2Proof.Machine.execSelRelease p s
  | .prstAssert p => Sys2Proof.Machine.execPrstAssert p s
  | .prstDeassert p => Sys2Proof.Machine.execPrstDeassert p s
  | .responseSent p => Sys2Proof.Machine.execResponseSent p s
  | .frame p bytes => Sys2Proof.Machine.execFrame p bytes s
  | .unknown p code seq body => Sys2Proof.Machine.execUnknown p code seq body s
  | .attach p seq body => Sys2Proof.Machine.execAttach p seq body s
  | .detach p seq body => Sys2Proof.Machine.execDetach p seq body s
  | .status p seq body => Sys2Proof.Machine.execStatus p seq body s
  | .post p seq body => Sys2Proof.Machine.execPost p seq body s
  | .peek p seq body => Sys2Proof.Machine.execPeek p seq body s
  | .cancel p seq body => Sys2Proof.Machine.execCancel p seq body s
  | .chainSet p seq body => Sys2Proof.Machine.execChainSet p seq body s
  | .chainPause p seq body => Sys2Proof.Machine.execChainPause p seq body s
  | .chainGo p seq body => Sys2Proof.Machine.execChainGo p seq body s
  | .chainRetry p seq body => Sys2Proof.Machine.execChainRetry p seq body s
  | .chainDrop p seq body => Sys2Proof.Machine.execChainDrop p seq body s
  | .chainFlush p seq body => Sys2Proof.Machine.execChainFlush p seq body s
  | .chainQuery p seq body => Sys2Proof.Machine.execChainQuery p seq body s
  | .targetQuery p seq body => Sys2Proof.Machine.execTargetQuery p seq body s
  | .pollCreate p seq body => Sys2Proof.Machine.execPollCreate p seq body s
  | .pollChange p seq body => Sys2Proof.Machine.execPollChange p seq body s
  | .pollPause p seq body => Sys2Proof.Machine.execPollPause p seq body s
  | .pollResume p seq body => Sys2Proof.Machine.execPollResume p seq body s
  | .pollDelete p seq body => Sys2Proof.Machine.execPollDelete p seq body s
  | .pollAdopt p seq body => Sys2Proof.Machine.execPollAdopt p seq body s
  | .snapRead p seq body => Sys2Proof.Machine.execSnapRead p seq body s
  | .claim p seq body => Sys2Proof.Machine.execClaim p seq body s
  | .renew p seq body => Sys2Proof.Machine.execRenew p seq body s
  | .release p seq body => Sys2Proof.Machine.execRelease p seq body s
  | .claimQuery p seq body => Sys2Proof.Machine.execClaimQuery p seq body s
  | .fetch p seq body => Sys2Proof.Machine.execFetch p seq body s
  | .notifySet p seq body => Sys2Proof.Machine.execNotifySet p seq body s
  | .notifyAck p seq body => Sys2Proof.Machine.execNotifyAck p seq body s
  | .propose p seq body => Sys2Proof.Machine.execPropose p seq body s
  | .confirm p seq body => Sys2Proof.Machine.execConfirm p seq body s
  | .decline p seq body => Sys2Proof.Machine.execDecline p seq body s
  | .withdraw p seq body => Sys2Proof.Machine.execWithdraw p seq body s
  | .agreeQuery p seq body => Sys2Proof.Machine.execAgreeQuery p seq body s
  | .sweepTimerExpiry => Sys2Proof.Machine.execSweepTimerExpiry s
  | .turnover => Sys2Proof.Machine.execTurnover s
  | .headDeadlineExpiry c => Sys2Proof.Machine.execHeadDeadlineExpiry c s
  | .leaseExpiry r => Sys2Proof.Machine.execLeaseExpiry r s
  | .proposalLapsed => Sys2Proof.Machine.execProposalLapsed s
  | .pollDue e => Sys2Proof.Machine.execPollDue e s
  | .preambleEnd => Sys2Proof.Machine.execPreambleEnd s
  | .requestFrameSent => Sys2Proof.Machine.execRequestFrameSent s
  | .replyWindowExpiry => Sys2Proof.Machine.execReplyWindowExpiry s
  | .replyFrameReceived f => Sys2Proof.Machine.execReplyFrameReceived f s
  | .discardingEnd => Sys2Proof.Machine.execDiscardingEnd s
  | .broadcastGuardEnd => Sys2Proof.Machine.execBroadcastGuardEnd s
  | .lineFault => Sys2Proof.Machine.execLineFault s
  | .lineOk => Sys2Proof.Machine.execLineOk s
  | .replyStartBit => Sys2Proof.Machine.execReplyStartBit s
  | .replyStart => Sys2Proof.Machine.execReplyStart s
  | .heldOutcome c => Sys2Proof.Machine.execHeldOutcome c s

end Sys2Proof.Machine
end

