-- ==== Sys2Proof/Machine/Wires.lean ====
section
/-! DEFINITION. What one byte clocked at a port (R164 to R167), one bit period of the field pair (R44 to R61) and an upset of a
slot do. The counts they raise reach the thresholds at which the commands' events take place, and the events are those commands
(log 2). -/

namespace Sys2Proof.Machine

/-- The byte a port in ANSWERING drives next, and what is left: the idle bytes first, then the frame (R167). -/
def Answer.next (a : Answer) : Byte × Answer :=
  if a.idle = 0 then (a.bytes.headD 0, { a with bytes := a.bytes.tail }) else (0, { a with idle := a.idle - 1 })

/-- One byte clocked in at a port whose SEL is held (R164): taken into the frame in RECEIVING, ignored in every other state;
the port drives its response in ANSWERING, and 0x00 otherwise. -/
def PortIf.clock (q : PortIf) (b : Byte) : PortIf :=
  match q.txn, q.answer with
  | .answering, some a => { q with answer := some a.next.2, sdo := some a.next.1 }
  | .receiving, _ => { q with rx := q.rx ++ [b], sdo := some 0 }
  | _, _ => { q with sdo := some 0 }

/-- The response has been shifted out in full. -/
def PortIf.answered (q : PortIf) : Bool :=
  (q.txn == .answering) &&
  match q.answer with
  | some a => a.idle == 0 && a.bytes.isEmpty
  | none => false

/-- One byte clocked in at a port: the last byte of a frame is the event in which the request is taken (R165), and the last of
the response puts the port in SPENT (R167). A port whose SEL is released takes and drives nothing (R164). -/
def clockByte (p : Port) (b : Byte) (s : State) : Host.Outcome State Fault Refusal :=
  if !s.ports[p].sel then .next s
  else
    let s' := modPort p (fun q => q.clock b) s
    if s.ports[p].txn = .receiving then
      match frameCommand p s'.ports[p].rx with
      | some i => exec i s'
      | none => .next s'
    else if s'.ports[p].answered then execResponseSent p s'
    else .next s'

/-- The run after a bit period outside the part's own frames and accepted replies (R60). -/
def runAfter (d : Drive) (run : Nat) : Nat :=
  match d with
  | .released => 0
  | .driven _ => satInc Config.lineFaultBits run

/-- Count a bit period in the exchange's stage. -/
def countBit (s : State) : State := modExchange (fun e => { e with count := e.count + 1 }) s

/-- The line monitor on such a bit period in LINE OK: at 64 it enters LINE FAULT; else `k` goes on (R60). -/
def watched (d : Drive) (k : State → Host.Outcome State Fault Refusal) (s : State) : Host.Outcome State Fault Refusal :=
  if runAfter d s.run = Config.lineFaultBits then execLineFault s else k { s with run := runAfter d s.run }

/-- A bit period in PREAMBLE (R48): a released one is counted, a driven one sets the count back to 0. -/
def preambleBit (d : Drive) (e : Exchange) (s : State) : Host.Outcome State Fault Refusal :=
  match d with
  | .driven _ => .next (modExchange (fun e => { e with count := 0 }) s)
  | .released => if e.count + 1 = Config.preambleBits then execPreambleEnd s else .next (countBit s)

/-- A bit period in SENDING: the part drives the next bit of its frame and sees no other driver (R48, R60). -/
def sendBit (e : Exchange) (s : State) : Host.Outcome State Fault Refusal :=
  match e.tx with
  | _ :: b :: rest => .next { modExchange (fun e => { e with tx := b :: rest }) s with run := 0 }
  | _ => execRequestFrameSent s

/-- A bit period in WINDOW (R49): the first driven one is the reply start bit, the delimiter's first; the 24th released one
ends the window. -/
def windowBit (d : Drive) (e : Exchange) (s : State) : Host.Outcome State Fault Refusal :=
  match d with
  | .driven b => if b then execHeldOutcome .badDelimiter (replyStartBit s) else execReplyStartBit s
  | .released =>
    if e.count + 1 = Config.windowBits then execReplyWindowExpiry { s with run := 0 } else .next { countBit s with run := 0 }

/-- The reply frame that the bits of a whole reply spell (section 12.4). -/
def replyOfBits (bits : List Bool) : ReplyFrame :=
  let afterHead := bits.drop replyHeadBits
  let n := replyCount (byteOfBits ((bits.drop 16).take 8))
  { header := byteOfBits ((bits.drop 8).take 8)
    count := byteOfBits ((bits.drop 16).take 8)
    words := (wordsOfBits afterHead).take n
    crc := ((wordsOfBits afterHead).drop n).headD 0 }

/-- A driven bit in RECEIVING (R50): the delimiter is matched bit by bit, the count byte is checked when it is complete, and the
last CRC bit ends the exchange. R50 does not say at which bit a high bit of the count byte that is not 0 is found: that it is found
at the byte's last bit is a DESIGN CHOICE (log 31). -/
def replyBit (b : Bool) (e : Exchange) (s : State) : Host.Outcome State Fault Refusal :=
  let bits := e.rx ++ [b]
  let s' := { modExchange (fun e => { e with rx := bits }) s with run := 0 }
  if bits.length ≤ 8 then
    if delimiter[bits.length - 1]? ≠ some b then execHeldOutcome .badDelimiter s
    else if bits.length = 8 then execReplyStart s'
    else .next s'
  else if bits.length < replyHeadBits then .next s'
  else
    let cb := byteOfBits ((bits.drop 16).take 8)
    if bits.length = replyHeadBits then
      if (heldBy e (.countByte cb)).isSome then execHeldOutcome (.countByte cb) s' else .next s'
    else if bits.length = replyHeadBits + 16 * replyCount cb + 16 then execReplyFrameReceived (replyOfBits bits) s'
    else .next s'

/-- A bit period in GUARD (R53): counted whatever the line does. -/
def guardBit (e : Exchange) (s : State) : Host.Outcome State Fault Refusal :=
  if e.count + 1 = Config.guardBits then execBroadcastGuardEnd s else .next (countBit s)

/-- One bit period of the field pair. -/
def fieldBit (d : Drive) (s : State) : Host.Outcome State Fault Refusal :=
  match s.line with
  | .fault =>
    match d with
    | .driven _ => .next { s with releasedCount := 0, run := runAfter d s.run }
    | .released =>
      if s.releasedCount + 1 = Config.lineRecoveryBits then execLineOk s
      else .next { s with releasedCount := s.releasedCount + 1, run := 0 }
  | .ok =>
    match s.exchange with
    | none => watched d .next s
    | some e =>
      match e.stage with
      | .preamble => watched d (preambleBit d e) s
      | .sending => sendBit e s
      | .window => windowBit d e s
      | .receiving =>
        match d with
        | .released => execDiscardingEnd s
        | .driven b => replyBit b e s
      | .discarding =>
        match d with
        | .released => execDiscardingEnd s
        | .driven _ => watched d .next s
      | .guard => watched d (guardBit e) s

/-- The contents an upset leaves in a held slot: those given, but for the fields that place the record in a list and the
counted fields, which it leaves as they were, and with no more data words than a slot has room for (log 5). They may lie out of the
ranges of R1; what a later try makes of them is log 29, and what events that verify no code make of
them is log 30. -/
def Record.upsetTo (r stored : Record) : Record :=
  { stored with
    data := stored.data.take 16
    chain := r.chain
    owner := r.owner
    state := r.state
    budget := r.budget
    budgetLeft := r.budgetLeft
    deadline := r.deadline
    attempts := r.attempts }

/-- An upset of a slot's stored bits: its check code no longer matches (section 10.2); a FREE slot is never verified (section
1.5). That an upset never changes the slot's generation, which the check code covers too (R8, R158), is the model's choice
(log 5). -/
def upsetSlot (i : SlotIx) (stored : Record) (s : State) : State :=
  match s.record i with
  | some r =>
    { s with slots := modAt s.slots i fun sl => { sl with record := some (r.upsetTo stored), codeMatches := false } }
  | none => s

/-- One input from outside. -/
def wireStep (w : WireEvent) (s : State) : Host.Outcome State Fault Refusal :=
  match w with
  | .byteIn p b => clockByte p b s
  | .bit d => fieldBit d s
  | .upset i stored => .next (upsetSlot i stored s)

end Sys2Proof.Machine
end

