-- ==== Sys2Proof/WellFormed.lean ====
section
/-! DEFINITION. Which commands the outside can send: a request's body fits the longest frame (R165), a FRAME frame is complete
and fails check 1 of R166, an UNKNOWN code is not in the catalogue, an accepted reply is as long as its count byte says (R50). -/

namespace Sys2Proof

/-- The body of a request frame is 0 to 60 bytes (section 12.1). -/
def bodyFits (body : List Byte) : Bool := body.length ≤ 60

/-- A reply frame as long as its count byte says, whose high count bits are 0 (R50, check 2). -/
def ReplyFrame.wellFormed (f : ReplyFrame) : Bool :=
  (f.count.extractLsb' 5 3 == 0) && f.words.length == replyCount f.count

/-- A command that can arrive. -/
def Instr.wellFormed : Instr → Bool
  | .frame _ bytes => frameComplete bytes && !frameGood bytes
  | .unknown p code seq body => bodyFits body && (requestOf code p seq body).isNone
  | .attach _ _ body | .detach _ _ body | .status _ _ body | .post _ _ body | .peek _ _ body | .cancel _ _ body
  | .chainSet _ _ body | .chainPause _ _ body | .chainGo _ _ body | .chainRetry _ _ body | .chainDrop _ _ body
  | .chainFlush _ _ body | .chainQuery _ _ body | .targetQuery _ _ body | .pollCreate _ _ body | .pollChange _ _ body
  | .pollPause _ _ body | .pollResume _ _ body | .pollDelete _ _ body | .pollAdopt _ _ body | .snapRead _ _ body
  | .claim _ _ body | .renew _ _ body | .release _ _ body | .claimQuery _ _ body | .fetch _ _ body
  | .notifySet _ _ body | .notifyAck _ _ body | .propose _ _ body | .confirm _ _ body | .decline _ _ body
  | .withdraw _ _ body | .agreeQuery _ _ body => bodyFits body
  | .replyFrameReceived f => f.wellFormed
  | .powerOn | .selAssert _ | .selRelease _ | .prstAssert _ | .prstDeassert _ | .responseSent _
  | .sweepTimerExpiry | .turnover | .headDeadlineExpiry _ | .leaseExpiry _ | .proposalLapsed | .pollDue _
  | .preambleEnd | .requestFrameSent | .replyWindowExpiry | .discardingEnd
  | .broadcastGuardEnd | .lineFault | .lineOk | .replyStartBit | .replyStart | .heldOutcome _ => true

end Sys2Proof
end

