-- ==== Sys2Proof/Safety.lean ====
section
/-! DEFINITION. What a sound state of the part is, in the terms the statements use: the invariants that the spec's rules give
over its tables, block by block. Each is a property of one state, meant to be kept by every step. -/

namespace Sys2Proof.Machine

/-! ### Words the statements use -/

/-- The port takes the frame that is completed: it is RECEIVING (R164, R165). -/
def State.takes (s : State) (p : Port) : Prop := s.ports[p].txn = .receiving

/-- The port takes the frame and has a session, so its request reaches its own checks (R166, R169). -/
def State.serves (s : State) (p : Port) : Prop := s.takes p ∧ s.attached p = true

/-- A command is answered with a result and a body, and leaves the part in `t` apart from the answer (R166, R167). -/
def Answered (c : Instr) (s : State) (p : Port) (seq : Byte) (code : ResultCode) (body : List Byte) (t : State) : Prop :=
  exec c s = .next (respond p seq code body t)

/-- A command is refused: answered with a result and no body, and no state changed (R166). -/
def Refused (c : Instr) (s : State) (p : Port) (seq : Byte) (code : ResultCode) : Prop := Answered c s p seq code [] s

/-! ### The store and its lists (R2, R21, R47, R129) -/

/-- The record is QUEUED, ACTIVE or HALTED: listed in a chain (R2). -/
def Record.inChain (r : Record) : Prop := r.state = .queued ∨ r.state = .active ∨ r.state = .halted

/-- Chains and report queues list exactly the slots R2, R21 and R129 say, each once, and a slot on the field bus is the one the
exchange in progress names (R18, R47). -/
structure State.ListsSound (s : State) : Prop where
  chain_once : ∀ c : ChainIx, s.chains[c].list.Nodup
  chain_lists : ∀ (c : ChainIx) (i : SlotIx), i ∈ s.chains[c].list →
    ∃ r, s.record i = some r ∧ r.inChain ∧ r.owner = some (chainPort c) ∧ r.home = c
  behind_head : ∀ (c : ChainIx) (i : SlotIx), i ∈ s.chains[c].list.tail → ∃ r, s.record i = some r ∧ r.state = .queued
  chain_full : ∀ (i : SlotIx) (r : Record), s.record i = some r → r.inChain → i ∈ s.chains[r.home].list
  queue_once : ∀ p : Port, s.reports[p].queue.Nodup
  queue_lists : ∀ (p : Port) (i : SlotIx), i ∈ s.reports[p].queue → ∃ r, s.record i = some r ∧ r.state = .done ∧ r.owner = some p
  queue_full : ∀ (i : SlotIx) (r : Record), s.record i = some r → r.state = .done → ∃ p, r.owner = some p ∧ i ∈ s.reports[p].queue
  on_bus : ∀ (i : SlotIx) (r : Record), s.record i = some r → r.state = .active ∨ r.state = .orphaned →
    ∃ e, s.exchange = some e ∧ e.origin = .record i s.slots[i].gen
  owned : ∀ (i : SlotIx) (r : Record), s.record i = some r → r.owner = none → r.state = .damaged

/-! ### The Poll Plan and its pending list (R97, R99) -/

/-- No two in-use entries share an identity (R97), and the pending list holds ACTIVE entries, each at most once (R99). -/
structure State.PlanSound (s : State) : Prop where
  distinct : ∀ (i j : PollIx) (b d : PollBody), s.polls[i].body = some b → s.polls[j].body = some d → b.target = d.target → b.span = d.span → i = j
  pending_once : s.pollPending.Nodup
  pending_active : ∀ i : PollIx, i ∈ s.pollPending → ∃ b, s.polls[i].body = some b ∧ b.paused = false
  polled_apart : ∀ (e : Exchange) (i : PollIx) (edit : Byte), s.exchange = some e → e.origin = .poll i edit → i ∉ s.pollPending

/-! ### Reservations (R116, R118) -/

/-- No two held reservations of different ports match a common address (R118), and a lease in force has time left (R116). -/
structure State.ClaimsSound (s : State) : Prop where
  disjoint : ∀ (e f : ResvIx) (a b : Reservation), s.resvs[e] = some a → s.resvs[f] = some b → a.owner ≠ b.owner →
    ∀ t : BitVec 6, ¬ (matches6 a.base a.mask t = true ∧ matches6 b.base b.mask t = true)
  leased : ∀ (e : ResvIx) (a : Reservation), s.resvs[e] = some a → 1 ≤ a.remaining ∧ a.remaining ≤ a.lease ∧ a.lease ≤ 255

/-! ### Sessions (R17, R114, R126, R141, R143, R151) -/

/-- A DETACHED port holds nothing but ORPHANED slots: no reservation, no poll entry, no note, no cause, no place in a pending
proposal (R17, R114, R126, R141, R151). -/
structure State.SessionsSound (s : State) : Prop where
  slots : ∀ (i : SlotIx) (r : Record) (p : Port), s.record i = some r → r.owner = some p → s.attached p = false → r.state = .orphaned
  reports : ∀ p : Port, s.attached p = false → s.reports[p] = Report.powerOn
  resvs : ∀ (e : ResvIx) (a : Reservation), s.resvs[e] = some a → s.attached a.owner = true
  creators : ∀ (i : PollIx) (b : PollBody) (p : Port), s.polls[i].body = some b → b.creator = some p → s.attached p = true
  required : ∀ (pr : Proposal) (p : Port), s.proposal = some pr → pr.required.has p = true → s.attached p = true

/-- The pending proposal (R143): its proposer is required and has confirmed, the confirmed set is contained in the required
set, some required port has not confirmed, and its window has not run out. -/
def State.ProposalSound (s : State) : Prop :=
  ∀ pr : Proposal, s.proposal = some pr →
    pr.required.has pr.proposer = true ∧ pr.confirmed.has pr.proposer = true ∧ pr.confirmed &&& ~~~ pr.required = 0 ∧
    pr.complete = false ∧ 1 ≤ pr.window ∧ pr.window ≤ 64

/-! ### The bus (R47, R61, R82, R86, R88, R156) -/

/-- What holds between events of the Sweep Controller's gates: no exchange in LINE FAULT (R61), an expired timer and a DRAINING
scheduler wait for an exchange (R82, R156), a grant is of a RUNNING scheduler and a BUSY chain (R31, R33), and an idle engine in
a poll phase has polls left to run (R88). -/
structure State.GatesSound (s : State) : Prop where
  fault_idle : s.line = .fault → s.exchange = none
  expired_busy : s.expired = true → s.exchange ≠ none ∧ s.grant = none
  draining_busy : s.sched = .draining → s.exchange ≠ none
  grant_busy : ∀ g : Grant, s.grant = some g → s.sched = .running ∧ s.chainState g.chain = .busy
  poll_phase : s.phase = .poll → s.exchange = none → s.pollPending ≠ [] ∧ s.pollsRun < s.pollWindow

/-- The bus is never left free while it could be used (R86, R90): when every condition of the offer holds, the phase is CHAIN
and no chain is eligible. -/
def State.BusUsed (s : State) : Prop :=
  s.mayOffer = true → s.phase = .chain ∧ ∀ c : ChainIx, s.eligible c = false

/-! ### Ranges (R1, R24, R45, R48, R49, R53, R57, R60, R61, R79, R97, R102, R116, R143, R167) -/

/-- A record's counted fields stay in the ranges of section 1.1, and so does its number of data words. -/
def Record.InRange (r : Record) : Prop :=
  r.budget ≤ 7 ∧ r.budgetLeft ≤ r.budget ∧ r.deadline ≤ 255 ∧ r.attempts ≤ 255 ∧ r.data.length ≤ 16

/-- A chain's fields stay in the ranges of section 2.1. -/
def Chain.InRange (ch : Chain) : Prop := ch.priority ≤ 3 ∧ 1 ≤ ch.burst ∧ ch.burst ≤ 8 ∧ ch.age ≤ 15

/-- A poll entry's fields stay in the ranges of R97 and R102. -/
def PollBody.InRange (b : PollBody) : Prop :=
  b.target ≠ 0 ∧ b.span.count ≤ 4 ∧ 1 ≤ b.period ∧ b.period ≤ 250 ∧ b.phase < b.period ∧ b.missed ≤ 255 ∧
  b.snap.age ≤ 255 ∧ b.snap.failRun ≤ 15 ∧ b.snap.words.length ≤ 4

/-- An exchange counts fewer bit periods in its stage than the threshold of 24, or of 8 in PREAMBLE (R48, R49, R53); it sends at
most 16 words (R45), and a poll reads at most 4 registers (R97). -/
def Exchange.InRange (e : Exchange) : Prop :=
  e.count ≤ 23 ∧ (e.stage = .preamble → e.count ≤ 7) ∧ e.send.length ≤ 16 ∧
  ∀ (i : PollIx) (edit : Byte), e.origin = .poll i edit → e.span.count ≤ 4

/-- A lease and the turnovers it has left (R116). -/
def Reservation.InRange (a : Reservation) : Prop := 1 ≤ a.remaining ∧ a.remaining ≤ a.lease ∧ a.lease ≤ 255

/-- A change's values are in the ranges of R144. -/
def Change.InRange (c : Change) : Prop :=
  match c with
  | .sweepLength ms => 1 ≤ ms ∧ ms ≤ 100
  | .pollWindow w => 1 ≤ w ∧ w ≤ 48
  | .quotas q => q[0] + q[1] + q[2] + q[3] ≤ 128
  | .fieldRate _ | .stop | .start | .restart => True

/-- Every counted field of the part is in the range its table gives: budgets, deadlines, attempts, data words, quotas, chain
settings and ages, no-reply and failure runs, poll periods, phases, misses and value words, the line monitor's counts, an exchange's
bit periods and words, sweep lengths, poll windows, polls run, overruns, a grant's completions, leases, the proposal's values and
window, and the idle bytes of a response. A stored result's word count is not among them: an upset may leave any (log 12). -/
structure State.InRange (s : State) : Prop where
  records : ∀ (i : SlotIx) (r : Record), s.record i = some r → r.InRange
  quotas : s.quotas[0] + s.quotas[1] + s.quotas[2] + s.quotas[3] ≤ 128
  chains : ∀ c : ChainIx, s.chains[c].InRange
  targets : ∀ t : Fin 63, s.targets[t].run ≤ 15
  polls : ∀ (i : PollIx) (b : PollBody), s.polls[i].body = some b → b.InRange
  timer : s.timerLength = s.sweepLength
  length : 1 ≤ s.sweepLength ∧ s.sweepLength ≤ 100
  nextLength : ∀ n : Nat, s.nextSweepLength = some n → 1 ≤ n ∧ n ≤ 100
  window : 1 ≤ s.pollWindow ∧ s.pollWindow ≤ 48
  nextWindow : ∀ n : Nat, s.nextPollWindow = some n → 1 ≤ n ∧ n ≤ 48
  pollsRun : s.pollsRun ≤ s.pollWindow
  overruns : s.overruns ≤ 255
  proposal : ∀ pr : Proposal, s.proposal = some pr → pr.change.InRange ∧ 1 ≤ pr.window ∧ pr.window ≤ 64
  line : s.run ≤ 64 ∧ s.releasedCount ≤ 255
  exchange : ∀ e : Exchange, s.exchange = some e → e.InRange
  leases : ∀ (e : ResvIx) (a : Reservation), s.resvs[e] = some a → a.InRange
  grant : ∀ g : Grant, s.grant = some g → g.completed ≤ 7
  answers : ∀ (p : Port) (a : Answer), s.ports[p].answer = some a → a.idle ≤ 8

end Sys2Proof.Machine
end

