-- ==== Sys2Proof/Certificates/Slice0/Obligations.lean ====
section
/-! DEFINITION. The statements: what the commands and the machine do, from the numbered rules of spec/. A docstring names the rules;
where a clause is the model's own choice it names the log entry. -/

open Sys2Proof Sys2Proof.Machine

/-! ### The machine -/

/-- A step takes the command at the front of the queue and runs it on the queue's rest. That with no command waiting the next input
from outside is taken, and with neither the block idles, is the model's choice (log 2). An input is a byte clocked at a port, a bit
period of the field pair, or an upset of a slot: what an upset changes is the model's choice too (log 5), a held slot then holds the
contents given, but for the fields that an upset leaves, and its check code mismatches; a FREE slot is left. The readings of State
and the two table operations that all the statements use are said here too: a slot's record, a port's session, a table with one
entry changed, a table from its entries. -/
def Obligations.StepRunsFrontCommand : Prop :=
  (∀ (i : SlotIx) (p : Port) (s : State), s.record i = s.slots[i].record ∧ s.attached p = s.ports[p].attached) ∧
  (∀ (α : Type) (n : Nat) (v : Vector α n) (i j : Fin n) (change : α → α) (entry : Fin n → α),
    (modAt v i change)[j] = (if j = i then change v[i] else v[j]) ∧ (tab entry)[j] = entry j) ∧
  (∀ (c : Instr) (rest : List Instr) (s : State), step { s with pending := c :: rest } = exec c { s with pending := rest }) ∧
  (∀ (w : WireEvent) (rest : List WireEvent) (s : State),
    step { s with pending := [], wires := w :: rest } = wireStep w { s with pending := [], wires := rest }) ∧
  (∀ s : State, s.pending = [] → s.wires = [] → step s = .next s) ∧
  (∀ (p : Port) (b : Byte) (s : State), wireStep (.byteIn p b) s = clockByte p b s) ∧
  (∀ (d : Drive) (s : State), wireStep (.bit d) s = fieldBit d s) ∧
  ∀ (i : SlotIx) (stored : Record) (s : State),
    (s.record i = none → wireStep (.upset i stored) s = .next s) ∧
    ∀ r : Record, s.record i = some r →
      wireStep (.upset i stored) s =
        .next { s with slots := modAt s.slots i fun sl =>
          { gen := sl.gen
            record := some
              { stored with
                data := stored.data.take 16, chain := r.chain, owner := r.owner, state := r.state, budget := r.budget,
                budgetLeft := r.budgetLeft, deadline := r.deadline, attempts := r.attempts }
            codeMatches := false } }

/-- Nothing stops the machine: every command, in every state, gives a next state (a refused request is answered and changes no
state: R166), and a command touches neither the rest of the queue nor the inputs that wait. That an event is taken in every state,
and changes nothing where it cannot occur, is the model's choice (log 3), and so is that POWER_ON keeps what waits (log 9). -/
def Obligations.EveryCommandIsCarriedOut : Prop :=
  ∀ (c : Instr) (s : State), ∃ t, exec c s = .next t ∧ t.pending = s.pending ∧ t.wires = s.wires

/-- The state right after reset has the power-on values of R3, R43, R62, R96, R115, R127, R142, R153 and R175. That SEL and PRST are
released is the model's choice (log 8). -/
def Obligations.ResetHasPowerOnValues : Prop :=
  let s := State.reset
  (∀ i : SlotIx, s.record i = none ∧ s.slots[i].gen = 0) ∧
  (∀ p : Port, s.quotas[p] = 32 ∧ s.holding p = 0) ∧
  (∀ c : ChainIx, s.chains[c] = { list := [], hold := false, priority := 1, burst := 1, age := 0 } ∧
    s.chainState c = .empty) ∧
  s.grant = none ∧ s.exchange = none ∧ s.rate = .fast ∧ s.line = .ok ∧ s.run = 0 ∧ s.releasedCount = 0 ∧
  (∀ t : Fin 63, s.targets[t] = { parity := false, presence := .unknown, run := 0, lastSweep := none }) ∧
  s.timerLength = 10 ∧ s.expired = false ∧ s.sweep = 0 ∧ s.sweepLength = 10 ∧ s.nextSweepLength = none ∧
  s.pollWindow = 16 ∧ s.nextPollWindow = none ∧ s.pollsRun = 0 ∧ s.phase = .chain ∧ s.overruns = 0 ∧ s.sched = .running ∧
  s.pointer = 15 ∧
  (∀ i : PollIx, s.polls[i] = { edit := 0, body := none }) ∧ s.pollPending = [] ∧
  (∀ e : ResvIx, s.resvs[e] = none) ∧
  (∀ p : Port, s.reports[p] = { queue := [], pending := 0, enables := 0, marks := 0 } ∧ s.notify p = false) ∧
  s.proposal = none ∧ s.lastNumber = 0 ∧ s.decision = none ∧
  ∀ p : Port, s.ports[p].attached = false ∧ s.ports[p].session = 0 ∧ s.ports[p].txn = .waiting ∧ s.ports[p].rx = []

/-- POWER_ON puts every block in its reset state whatever the state was; each port's transaction state follows its pins, and its SDO
drives 0x00 while SEL is held (R164, R172, R175; SDO is held byte by byte, log 20). That the pins, the waiting commands and inputs
and the count of free values go on, and the value that State.reset gives the check code of a FREE slot, are the model's choice (logs
5, 6, 9). -/
def Obligations.PowerOnFromAnyState : Prop :=
  ∀ s : State, ∃ ps : Vector PortIf 4,
    exec .powerOn s =
      .next { State.reset with ports := ps, fresh := s.fresh, pending := s.pending, wires := s.wires } ∧
    ∀ p : Port,
      ps[p] =
        { sel := s.ports[p].sel, prst := s.ports[p].prst,
          txn := if s.ports[p].prst then .resetHeld else if s.ports[p].sel then .spent else .waiting,
          rx := [], answer := none, sdo := if s.ports[p].sel then some 0 else none, attached := false, session := 0 }

/-! ### Ports, requests and sessions (11) -/

/-- What SEL and the end of a response do to their own port, and to nothing else (R164, R167, R168, R172). What a SEL_ASSERT does to
a port not WAITING, and a RESPONSE_SENT to one not ANSWERING, is the model's choice (log 3). From the assertion of SEL on SDO drives
0x00, and from its release on nothing (R164; the byte last driven is held, log 20). PRST_ASSERT puts its port in RESET HELD with its
frame and response gone and 0x00 on SDO while SEL is held, and ends the session of an ATTACHED port in the same event, after which
the bus may be offered; PRST_DEASSERT leaves RESET HELD for WAITING, or for SPENT while SEL is held (R86, R164, R172). -/
def Obligations.PortPins : Prop :=
  (∀ (p : Port) (s : State),
     (s.ports[p].txn = .waiting →
       exec (.selAssert p) s =
         .next { s with ports := modAt s.ports p fun q =>
           { q with sel := true, txn := .receiving, rx := [], sdo := if q.sel then q.sdo else some 0 } }) ∧
     (s.ports[p].txn ≠ .waiting →
       exec (.selAssert p) s =
         .next { s with ports := modAt s.ports p fun q =>
           { q with sel := true, sdo := if q.sel then q.sdo else some 0 } }) ∧
     (s.ports[p].txn ≠ .resetHeld →
       exec (.selRelease p) s =
         .next { s with ports := modAt s.ports p fun q =>
           { q with sel := false, txn := .waiting, rx := [], answer := none, sdo := none } }) ∧
     (s.ports[p].txn = .resetHeld →
       exec (.selRelease p) s =
         .next { s with ports := modAt s.ports p fun q => { q with sel := false, rx := [], answer := none, sdo := none } }) ∧
     (s.ports[p].txn = .answering →
       exec (.responseSent p) s =
         .next { s with ports := modAt s.ports p fun q => { q with txn := .spent, answer := none } }) ∧
     (s.ports[p].txn ≠ .answering → exec (.responseSent p) s = .next s)) ∧
  ∀ (p : Port) (s : State),
    let held : State := { s with ports := modAt s.ports p fun q =>
      { q with prst := true, txn := .resetHeld, rx := [], answer := none, sdo := if q.sel then some 0 else none } }
    (s.attached p = true → exec (.prstAssert p) s = .next (offerBus (sessionEnd p held))) ∧
    (s.attached p = false → exec (.prstAssert p) s = .next held) ∧
    (s.ports[p].txn = .resetHeld →
      exec (.prstDeassert p) s =
        .next { s with ports := modAt s.ports p fun q =>
          { q with prst := false, txn := if q.sel then .spent else .waiting } }) ∧
    (s.ports[p].txn ≠ .resetHeld →
      exec (.prstDeassert p) s = .next { s with ports := modAt s.ports p fun q => { q with prst := false } })

/-- A complete frame with a length out of range or a wrong CRC-8 is answered FRAME with the sequence byte received, or 0; a good
frame with a code not in the catalogue is answered UNKNOWN; neither changes a block (R165, R166, R167). Every request, sent by its
code of section 12.5: a port that is not RECEIVING ignores it (R164; for WAITING this is the model's reading, log 10); a DETACHED
port has every request but ATTACH and STATUS refused DETACHED (R169). A frame is complete at the last byte its length byte names, or
at a length byte out of range, and good when its length is in range and its last byte is the CRC-8 of the others (R165, R166); the
catalogue is that of section 12.5. -/
def Obligations.RequestsTakenOrRefused : Prop :=
  (∀ bytes : List Byte,
     (frameComplete bytes = true ↔
       ∃ (len : Byte) (rest : List Byte),
         bytes = len :: rest ∧ if 3 ≤ len.toNat ∧ len.toNat ≤ 63 then rest.length = len.toNat else rest = []) ∧
     (frameComplete bytes = true →
       (frameGood bytes = true ↔ 4 ≤ bytes.length ∧ ∃ front : List Byte, bytes = front ++ [crc8 front]))) ∧
  (∀ (code : Byte) (p : Port) (seq : Byte) (body : List Byte),
     let catalogue : List (Byte × (Port → Byte → List Byte → Instr)) :=
       [(0x01, .attach), (0x02, .status), (0x03, .detach), (0x10, .post), (0x11, .peek), (0x12, .cancel),
        (0x13, .targetQuery), (0x20, .chainSet), (0x21, .chainPause), (0x22, .chainGo), (0x23, .chainRetry),
        (0x24, .chainDrop), (0x25, .chainFlush), (0x26, .chainQuery), (0x30, .pollCreate), (0x31, .pollChange),
        (0x32, .pollPause), (0x33, .pollResume), (0x34, .pollDelete), (0x35, .pollAdopt), (0x36, .snapRead),
        (0x40, .claim), (0x41, .renew), (0x42, .release), (0x43, .claimQuery), (0x50, .fetch), (0x51, .notifySet),
        (0x52, .notifyAck), (0x60, .propose), (0x61, .confirm), (0x62, .decline), (0x63, .withdraw),
        (0x64, .agreeQuery)]
     requestOf code p seq body = (catalogue.find? fun entry => entry.1 == code).map fun entry => entry.2 p seq body) ∧
  ((∀ (p : Port) (bytes : List Byte) (s : State), s.takes p → frameComplete bytes = true → frameGood bytes = false →
     Refused (.frame p bytes) s p (bytes.getD 2 0) .frame) ∧
   ∀ (p : Port) (code seq : Byte) (body : List Byte) (s : State), s.takes p → requestOf code p seq body = none →
     Refused (.unknown p code seq body) s p seq .unknown) ∧
  ∀ (code : Byte) (p : Port) (seq : Byte) (body : List Byte) (c : Instr) (s : State),
    requestOf code p seq body = some c →
    (¬ s.takes p → exec c s = .next s) ∧
    (s.takes p → s.attached p = false → code ≠ 0x01 → code ≠ 0x02 → Refused c s p seq .detached)

/-- Answering a request puts its port in ANSWERING with the response of section 12.1 to shift out, after at most 8 idle bytes (R167,
R176), and changes nothing else; the count of free values rises (log 6). The result codes of section 12.5; a count goes as one byte,
and a word most significant byte first; and the CRC-8 of a byte more: its bits enter most significant first, by the polynomial
x^8+x^2+x+1, from the initial value 0 (R176). -/
def Obligations.AnswerFormed : Prop :=
  ([.ok, .frame, .unknown, .detached, .badfield, .quota, .fenced, .nosuch, .stale, .notowner, .conflict, .full, .exist,
     .busy, .state, .faulted, .empty].map ResultCode.code = (List.range 17).map byte) ∧
  (∀ n : Nat, (byte n).toNat = n % 256) ∧
  (∀ w : Word, wordBytes w = [byte (w.toNat / 256), byte (w.toNat % 256)]) ∧
  (crc8 [] = 0 ∧ ∀ (bytes : List Byte) (b : Byte),
    crc8 (bytes ++ [b]) =
      [7, 6, 5, 4, 3, 2, 1, 0].foldl
        (fun (crc : Byte) n => if crc.msb = b.getLsbD n then crc <<< 1 else (crc <<< 1) ^^^ 0x07) (crc8 bytes)) ∧
  ∀ (p : Port) (seq : Byte) (code : ResultCode) (body : List Byte) (s : State),
    let t := respond p seq code body s
    t = { s with ports := t.ports, fresh := s.fresh + 1 } ∧
    (∀ q : Port, q ≠ p → t.ports[q] = s.ports[q]) ∧
    ∃ a : Answer,
      t.ports[p] = { s.ports[p] with txn := .answering, rx := [], answer := some a } ∧ a.idle ≤ 8 ∧
      a.bytes =
        0x5A :: seq :: code.code :: BitVec.ofNat 8 body.length :: body ++
          [crc8 (seq :: code.code :: BitVec.ofNat 8 body.length :: body)]

/-- ATTACH begins a session and returns its number; DETACH ends it and returns the number of the session that ended; the bus may
then be offered. A body is BADFIELD, and ATTACH from an ATTACHED port is STATE (R86, R170, R171). STATUS answers an ATTACHED or
DETACHED port with the items of R174 as R179 lays them out, and changes nothing; the codes of its states are those of section
12.5. -/
def Obligations.SessionRequests : Prop :=
  ([.running, .draining, .stopped, .faulted].map Sched.code = [0, 1, 2, 3] ∧ [.ok, .fault].map LineState.code = [0, 1]) ∧
  (∀ (p : Port) (seq : Byte) (body : List Byte) (s : State), s.takes p →
     (s.attached p = false →
       Answered (.attach p seq []) s p seq .ok [s.ports[p].session + 1]
         { s with ports := modAt s.ports p fun q => { q with attached := true, session := q.session + 1 } }) ∧
     (s.attached p = true → Refused (.attach p seq []) s p seq .state) ∧
     (body ≠ [] → Refused (.attach p seq body) s p seq .badfield) ∧
     (s.attached p = true →
       Answered (.detach p seq []) s p seq .ok [s.ports[p].session] (offerBus (sessionEnd p s))) ∧
     (s.attached p = true → body ≠ [] → Refused (.detach p seq body) s p seq .badfield)) ∧
  ∀ (p : Port) (seq : Byte) (body : List Byte) (s : State), s.takes p →
    Answered (.status p seq []) s p seq .ok
      ([0x44, 0x10, 0x00, s.sched.code, s.line.code] ++ wordBytes s.sweep ++
        [byte s.overruns, if s.attached p then 1 else 0, s.ports[p].session, byte (s.holding p), byte s.quotas[p],
          byte s.reports[p].queue.length, s.reports[p].pending, s.reports[p].enables]) s ∧
    (body ≠ [] → Refused (.status p seq body) s p seq .badfield)

/-- The session end of a port, block by block, before the Agreement Unit's part (R17, R42, R114, R126, R141, R173). That this part
comes last is the model's reading (log 24). -/
def Obligations.SessionEndByBlock : Prop :=
  ∀ (p : Port) (s : State), ∃ u : State,
    sessionEnd p s = leaveProposal p u ∧
    u = { s with
      ports := u.ports, slots := u.slots, chains := u.chains, grant := u.grant, reports := u.reports, resvs := u.resvs,
      polls := u.polls } ∧
    u.ports[p] = { s.ports[p] with attached := false } ∧
    (∀ q : Port, q ≠ p → u.ports[q] = s.ports[q] ∧ u.reports[q] = s.reports[q]) ∧
    u.reports[p] = { queue := [], pending := 0, enables := 0, marks := 0 } ∧
    (∀ i : SlotIx, (∀ r : Record, s.record i = some r → r.owner ≠ some p) → u.slots[i] = s.slots[i]) ∧
    (∀ (i : SlotIx) (r : Record), s.record i = some r → r.owner = some p →
      match r.state with
      | .queued | .halted | .done => u.record i = none ∧ u.slots[i].gen = s.slots[i].gen + 1
      | .active => u.record i = some { r with state := .orphaned } ∧ u.slots[i].gen = s.slots[i].gen
      | .orphaned => u.slots[i] = s.slots[i]
      | .damaged => u.record i = some { r with owner := none } ∧ u.slots[i].gen = s.slots[i].gen) ∧
    (∀ c : ChainIx, u.chains[c] =
      if chainPort c = p then { list := [], hold := false, priority := 1, burst := 1, age := 0 } else s.chains[c]) ∧
    (∀ g : Grant, s.grant = some g → u.grant = if chainPort g.chain = p then none else some g) ∧
    (s.grant = none → u.grant = none) ∧
    (∀ (e : ResvIx) (a : Reservation), s.resvs[e] = some a → u.resvs[e] = if a.owner = p then none else some a) ∧
    (∀ e : ResvIx, s.resvs[e] = none → u.resvs[e] = none) ∧
    (∀ i : PollIx, u.polls[i].edit = s.polls[i].edit ∧
      (s.polls[i].body = none → u.polls[i].body = none) ∧
      ∀ b : PollBody, s.polls[i].body = some b →
        u.polls[i].body = some { b with creator := if b.creator = some p then none else b.creator })

/-- The Agreement Unit's part of the session end of port `p` (R151): the port leaves both sets of a proposal that required it; its
own proposal is WITHDRAWN; a proposal left complete is ADOPTED or VOID; any other stays pending. -/
def Obligations.MembershipAtSessionEnd : Prop :=
  ∀ (p : Port) (s : State),
    (s.proposal = none → leaveProposal p s = s) ∧
    ∀ pr : Proposal, s.proposal = some pr →
      (pr.required.has p = false → leaveProposal p s = s) ∧
      (pr.required.has p = true →
        let rest : Proposal :=
          { pr with required := pr.required &&& ~~~ portSet p, confirmed := pr.confirmed &&& ~~~ portSet p }
        (pr.proposer = p → leaveProposal p s = decideProposal rest .withdrawn s) ∧
        (pr.proposer ≠ p → (∀ q : Port, rest.required.has q = true → rest.confirmed.has q = true) →
          (rest.change.valid s.sched = true → leaveProposal p s = decideProposal rest .adopted s) ∧
          (rest.change.valid s.sched = false → leaveProposal p s = decideProposal rest .void s)) ∧
        (pr.proposer ≠ p → (∃ q : Port, rest.required.has q = true ∧ rest.confirmed.has q = false) →
          leaveProposal p s = { s with proposal := some rest }))

/-! ### Request bodies (12) -/

/-- A POST body is in range exactly when it is the layout of section 12.2 of fields in the ranges of R1, and that layout byte by
byte (R1, R177). -/
def Obligations.PostBodiesInRange : Prop :=
  (∀ b : PostBody, b.budget ≤ 7 →
     b.span.count = b.span.countM1.toNat + 1 ∧
     b.bytes =
       [match b.kind with
        | .read => 0
        | .write => 1
        | .modify => 2
        | .broadcast => 3,
        (if b.stopShort then 0x80 else 0) ||| (if b.groupEnd then 0x40 else 0) ||| (if b.note then 0x20 else 0) |||
          byte (4 * b.budget + b.chain.val),
        b.target.zeroExtend 8] ++
       wordBytes (b.span.countM1 ++ b.span.register) ++ wordBytes b.tag ++ [byte b.deadline] ++ b.data.flatMap wordBytes) ∧
  ∀ (body : List Byte) (b : PostBody),
    parsePost body = some b ↔
      body = b.bytes ∧ b.budget ≤ 7 ∧ b.deadline ≤ 255 ∧
      (b.target = 0 ↔ b.kind = .broadcast) ∧
      (b.kind = .modify → b.span.count = 1) ∧
      b.span.register.toNat + b.span.count - 1 ≤ 4095 ∧
      b.data.length =
        (match b.kind with
         | .read => 0
         | .write | .broadcast => b.span.count
         | .modify => 2) ∧
      (b.stopShort = true → b.kind = .read)

/-- The bodies of the other requests are those of section 12.6 with values in range (R6, R35, R36, R41, R59, R107, R118, R119, R144,
R179). A poll definition and a proposal's change are laid out byte by byte as that section and section 12.5 have them. -/
def Obligations.RequestBodiesInRange : Prop :=
  (∀ d : PollDef,
    d.bytes = [d.target.zeroExtend 8] ++ wordBytes (d.span.countM1 ++ d.span.register) ++ [byte d.period, byte d.phase]) ∧
  (∀ c : Change,
    c.bytes =
      match c with
      | .sweepLength ms => [1, byte ms]
      | .pollWindow w => [2, byte w]
      | .quotas q => [3, byte q[0], byte q[1], byte q[2], byte q[3]]
      | .fieldRate .fast => [4, 0]
      | .fieldRate .slow => [4, 1]
      | .stop => [5]
      | .start => [6]
      | .restart => [7]) ∧
  (∀ (body : List Byte) (i : SlotIx) (g : Byte), parseHandle body = some (i, g) ↔ body = [byte i.val, g]) ∧
  (∀ (body : List Byte) (c : Fin 4), parseChain body = some c ↔ body = [byte c.val]) ∧
  (∀ (body : List Byte) (c : Fin 4) (prio burst : Nat), parseChainSet body = some (c, prio, burst) ↔
    body = [byte c.val, byte prio, byte burst] ∧ prio ≤ 3 ∧ 1 ≤ burst ∧ burst ≤ 8) ∧
  (∀ (body : List Byte) (c : Fin 4) (start : Nat), parseChainQuery body = some (c, start) ↔
    body = [byte c.val, byte start] ∧ start ≤ 127) ∧
  (∀ (body : List Byte) (t : Fin 63), parseTarget body = some t ↔ body = [byte (t.val + 1)]) ∧
  (∀ (body : List Byte) (i : PollIx), parsePollIx body = some i ↔ body = [byte i.val]) ∧
  (∀ (body : List Byte) (d : PollDef), parsePollDef body = some d ↔
    body = d.bytes ∧ d.target ≠ 0 ∧ d.span.count ≤ 4 ∧ d.span.register.toNat + d.span.count - 1 ≤ 4095 ∧
    1 ≤ d.period ∧ d.period ≤ 250 ∧ d.phase < d.period) ∧
  (∀ (body : List Byte) (i : PollIx) (d : PollDef), parsePollChange body = some (i, d) ↔
    ∃ rest : List Byte, body = byte i.val :: rest ∧ parsePollDef rest = some d) ∧
  (∀ (body : List Byte) (base mask : BitVec 6) (priv : Bool) (lease : Nat),
    parseClaim body = some (base, mask, priv, lease) ↔
      body = [base.zeroExtend 8, mask.zeroExtend 8, if priv then 1 else 0, byte lease] ∧ 1 ≤ lease ∧ lease ≤ 255 ∧
      ∃ t : BitVec 6, matches6 base mask t = true) ∧
  (∀ (body : List Byte) (e : ResvIx), parseResvIx body = some e ↔ body = [byte e.val]) ∧
  (∀ (body : List Byte) (c : Change), parseChange body = some c ↔
    body = c.bytes ∧
    match c with
    | .sweepLength ms => 1 ≤ ms ∧ ms ≤ 100
    | .pollWindow w => 1 ≤ w ∧ w ≤ 48
    | .quotas q => q[0] + q[1] + q[2] + q[3] ≤ 128
    | .fieldRate _ | .stop | .start | .restart => True)

/-! ### The Transfer Store (01) -/

/-- An accepted POST: with every check of R9 passed, the lowest FREE slot takes the record R10 gives, its chain gains it at the
tail, and the handle is the answer; the bus may be offered (R4, R9, R10, R23, R86, R177). The checks of R9 after attachment, in
their order; a refused POST changes no state. A port's holding is the number of held slots whose owner it is (section 1.2, R2). -/
def Obligations.PostChecksAndEffect : Prop :=
  (∀ (p : Port) (s : State),
     ∃ owned : List SlotIx,
       s.holding p = owned.length ∧ owned.Nodup ∧
       ∀ i : SlotIx, i ∈ owned ↔ ∃ r : Record, s.record i = some r ∧ r.owner = some p) ∧
  (∀ (p : Port) (seq : Byte) (body : List Byte) (b : PostBody) (i : SlotIx) (s : State),
     s.serves p → parsePost body = some b → s.sched ≠ .faulted → s.fenced p b.kind b.target = false →
     s.holding p < s.quotas[p] → s.record i = none → (∀ j : SlotIx, j < i → s.record j ≠ none) →
     Answered (.post p seq body) s p seq .ok [byte i.val, s.slots[i].gen]
       (offerBus
         { s with
           slots := modAt s.slots i fun sl =>
             { gen := sl.gen
               record := some
                 { kind := b.kind, target := b.target, span := b.span, data := b.data, chain := b.chain, tag := b.tag,
                   budget := b.budget, deadline := b.deadline, note := b.note, groupEnd := b.groupEnd,
                   stopShort := b.stopShort, owner := some p, state := .queued, postedSweep := s.sweep, attempts := 0,
                   budgetLeft := b.budget, lastOutcome := .absent, haltReason := .absent, cancelPending := false,
                   result := .absent, endKind := none, cancelLate := false, completionSweep := none }
               codeMatches := true }
           chains := modAt s.chains (chainIx p b.chain) fun ch => { ch with list := ch.list ++ [i] } })) ∧
  ∀ (p : Port) (seq : Byte) (body : List Byte) (s : State), s.serves p →
    (parsePost body = none → Refused (.post p seq body) s p seq .badfield) ∧
    ∀ b : PostBody, parsePost body = some b →
      (s.sched = .faulted → Refused (.post p seq body) s p seq .faulted) ∧
      (s.sched ≠ .faulted → s.fenced p b.kind b.target = true → Refused (.post p seq body) s p seq .fenced) ∧
      (s.sched ≠ .faulted → s.fenced p b.kind b.target = false → s.quotas[p] ≤ s.holding p →
        Refused (.post p seq body) s p seq .quota) ∧
      (s.sched ≠ .faulted → s.fenced p b.kind b.target = false → s.holding p < s.quotas[p] →
        (∀ i : SlotIx, s.record i ≠ none) → Refused (.post p seq body) s p seq .full)

/-- The checks of R6 after attachment, in their order, for PEEK and CANCEL. -/
def Obligations.HandleChecks : Prop :=
  ∀ (p : Port) (seq : Byte) (body : List Byte) (c : Instr) (s : State),
    c = .peek p seq body ∨ c = .cancel p seq body → s.serves p →
    (parseHandle body = none → Refused c s p seq .badfield) ∧
    ∀ (i : SlotIx) (g : Byte), parseHandle body = some (i, g) →
      (s.record i = none → Refused c s p seq .stale) ∧
      ∀ r : Record, s.record i = some r →
        (r.state = .orphaned ∨ r.owner = none ∨ s.slots[i].gen ≠ g → Refused c s p seq .stale) ∧
        (r.state ≠ .orphaned → r.owner ≠ none → r.owner ≠ some p → s.slots[i].gen = g →
          Refused c s p seq .notowner)

/-- PEEK of a record it reaches (R11): the fields as they stand, changing nothing; the state alone for a DAMAGED slot; and a store
fault for a mismatched check code (R8, R158). CANCEL of a record it reaches, by the record's state (R12 to R15): a QUEUED or HALTED
record is retired, after which the bus may be offered to the chain's new head (R86); an ACTIVE record has its flag set; with the
flag already set nothing changes, the check code included; a DONE or DAMAGED slot is STATE. The codes PEEK answers with are those of
sections 12.3 and 12.5, and a code an upset left without a meaning is sent as stored (R178); which fields can hold one is the
model's choice (log 12), and so is that a CANCEL, which verifies no code, takes the fields of an upset slot as stored (log 30). -/
def Obligations.PeekAndCancel : Prop :=
  ([.queued, .active, .halted, .done, .damaged].map RecordState.code = [1, 2, 3, 4, 5] ∧
   [.done, .short, .wait, .refused, .noreply, .corrupt, .overlong, .line].map Outcome.code = [1, 2, 3, 4, 5, 6, 7, 8] ∧
   [.refused, .overlong, .exhausted, .fenced, .expired].map HaltReason.code = [1, 2, 3, 4, 5] ∧
   ∀ (α : Type) (f : α → Byte) (a : α) (b : Byte),
     Stored.absent.code f = 0 ∧ (Stored.known a).code f = f a ∧ (Stored.other b).code f = b) ∧
  (∀ (p : Port) (seq : Byte) (i : SlotIx) (r : Record) (s : State),
     s.serves p → s.record i = some r → r.owner = some p → r.state ≠ .orphaned →
     let c : Instr := .peek p seq [byte i.val, s.slots[i].gen]
     (r.state = .damaged → Answered c s p seq .ok [5] s) ∧
     (r.state ≠ .damaged → s.slots[i].codeMatches = true →
       Answered c s p seq .ok
         [r.state.code, byte r.attempts, byte r.budgetLeft, r.lastOutcome.code Outcome.code,
           r.haltReason.code HaltReason.code] s) ∧
     (r.state ≠ .damaged → s.slots[i].codeMatches = false →
       Answered c s p seq .faulted [] (storeFault (damageSlot i s)))) ∧
  ∀ (p : Port) (seq : Byte) (i : SlotIx) (r : Record) (s : State),
    s.serves p → s.record i = some r → r.owner = some p →
    let c : Instr := .cancel p seq [byte i.val, s.slots[i].gen]
    (r.state = .queued ∨ r.state = .halted → Answered c s p seq .ok [] (offerBus (retire i r .cancelled s))) ∧
    (r.state = .active → r.cancelPending = true → Answered c s p seq .ok [] s) ∧
    (r.state = .active → r.cancelPending = false → Answered c s p seq .ok []
      { s with slots := modAt s.slots i fun sl =>
        { gen := sl.gen, record := some { r with cancelPending := true }, codeMatches := true } }) ∧
    (r.state = .done ∨ r.state = .damaged → Refused c s p seq .state)

/-- Retirement of a held slot with a record of an attached owner, be it the one stored or what a try made of it: out of its chain,
DONE with its end kind and the current sweep, its check code written anew (section 1.5), at the tail of the owner's report queue
with the REPORT mark set; every other record, order and field stays (R19, R28, R130). A reading that finds a mismatched check code:
the slot becomes DAMAGED and leaves the list that holds it, with its owner, its generation and its fields kept; the scheduler
becomes FAULTED from any state, a grant ends, and FAULT is raised at every attached port (R28, R131, R158). The parts of these that
other statements name: retiring a slot with the record it holds, taking a slot out of its list, freeing a slot, which raises its
generation (R5) and leaves a code that the model holds as matching by its choice (log 5), and the two halves of a store fault. That
a slot that leaves is taken out of every chain and every report queue is the model's reading (log 19): in a state that a run reaches
one list holds it at most. -/
def Obligations.SlotsLeaveTheirLists : Prop :=
  (∀ (i : SlotIx) (r : Record) (k : EndKind) (p : Port) (s : State),
     s.record i ≠ none → r.owner = some p → s.attached p = true →
     let t := retire i r k s
     t = { s with slots := t.slots, chains := t.chains, reports := t.reports } ∧
     t.slots[i] =
       { gen := s.slots[i].gen
         record := some { r with state := .done, endKind := some k, completionSweep := some s.sweep }
         codeMatches := true } ∧
     (∀ j : SlotIx, j ≠ i → t.slots[j] = s.slots[j]) ∧
     (∀ c : ChainIx, t.chains[c] =
       if i ∈ s.chains[c].list then
         { s.chains[c] with
           list := s.chains[c].list.filter (· != i)
           age := if s.chains[c].list.filter (· != i) = [] then 0 else s.chains[c].age }
       else s.chains[c]) ∧
     t.reports[p] =
       { s.reports[p] with
         queue := s.reports[p].queue.filter (· != i) ++ [i]
         marks := s.reports[p].marks ||| Deferred.report.bit } ∧
     ∀ q : Port, q ≠ p →
       t.reports[q] = { s.reports[q] with queue := s.reports[q].queue.filter (· != i) }) ∧
  (∀ (i : SlotIx) (k : EndKind) (s : State),
     (s.record i = none → retireSlot i k s = s) ∧
     ∀ r : Record, s.record i = some r → retireSlot i k s = retire i r k s) ∧
  (∀ (i : SlotIx) (s : State),
     let t := unlist i s
     t = { s with chains := t.chains, reports := t.reports } ∧
     (∀ c : ChainIx, t.chains[c] =
       if i ∈ s.chains[c].list then
         { s.chains[c] with
           list := s.chains[c].list.filter (· != i)
           age := if s.chains[c].list.filter (· != i) = [] then 0 else s.chains[c].age }
       else s.chains[c]) ∧
     (∀ p : Port, t.reports[p] = { s.reports[p] with queue := s.reports[p].queue.filter (· != i) }) ∧
     freeSlot i s =
       { s with slots := modAt s.slots i fun sl => { gen := sl.gen + 1, record := none, codeMatches := true } } ∧
     storeFault s = raiseAll .fault { s with sched := .faulted, grant := none } ∧
     ∀ r : Record, s.record i = some r →
       damageSlot i s =
         { unlist i s with slots := modAt s.slots i fun sl =>
           { gen := sl.gen, record := some { r with state := .damaged }, codeMatches := true } }) ∧
  ∀ (i : SlotIx) (r : Record) (s : State), s.record i = some r →
    let t := storeFault (damageSlot i s)
    t = { s with
      slots := t.slots, chains := t.chains, reports := t.reports, sched := .faulted, grant := none } ∧
    t.slots[i] = { gen := s.slots[i].gen, record := some { r with state := .damaged }, codeMatches := true } ∧
    (∀ j : SlotIx, j ≠ i → t.slots[j] = s.slots[j]) ∧
    (∀ c : ChainIx, t.chains[c] =
      if i ∈ s.chains[c].list then
        { s.chains[c] with
          list := s.chains[c].list.filter (· != i)
          age := if s.chains[c].list.filter (· != i) = [] then 0 else s.chains[c].age }
      else s.chains[c]) ∧
    ∀ p : Port,
      t.reports[p] =
        { s.reports[p] with
          queue := s.reports[p].queue.filter (· != i)
          pending := if s.attached p then s.reports[p].pending ||| Cause.fault.bit else s.reports[p].pending }

/-! ### Chains (02) -/

/-- CHAIN SET writes priority and burst, CHAIN PAUSE sets and CHAIN GO clears the hold flag, whatever their values were, and nothing
else changes but for the offer of the bus that GO may make; a body out of range is BADFIELD (R35, R36, R37, R86). Chain c of port p
has chain id 4p + c (section 2.1), and a record is in the chain it was posted to (R10). -/
def Obligations.ChainSettings : Prop :=
  (∀ (p : Port) (c : Fin 4), (chainIx p c).val = 4 * p.val + c.val ∧ chainPort (chainIx p c) = p) ∧
  (∀ (p : Port) (r : Record), r.owner = some p → r.home = chainIx p r.chain) ∧
  ∀ (p : Port) (seq : Byte) (body : List Byte) (s : State), s.serves p →
    (∀ (c : Fin 4) (prio burst : Nat), parseChainSet body = some (c, prio, burst) →
      Answered (.chainSet p seq body) s p seq .ok []
        { s with chains := modAt s.chains (chainIx p c) fun ch => { ch with priority := prio, burst := burst } }) ∧
    (∀ c : Fin 4, parseChain body = some c →
      Answered (.chainPause p seq body) s p seq .ok []
        { s with chains := modAt s.chains (chainIx p c) fun ch => { ch with hold := true } } ∧
      Answered (.chainGo p seq body) s p seq .ok []
        (offerBus { s with chains := modAt s.chains (chainIx p c) fun ch => { ch with hold := false } })) ∧
    (parseChainSet body = none → Refused (.chainSet p seq body) s p seq .badfield) ∧
    (parseChain body = none →
      Refused (.chainPause p seq body) s p seq .badfield ∧ Refused (.chainGo p seq body) s p seq .badfield)

/-- CHAIN RETRY returns a HALTED head to QUEUED with its budget reloaded and its halt reason absent; CHAIN DROP retires it DROPPED;
the bus may be offered; a chain that is not HALTED is STATE (R35, R38, R39, R86). That the fields of an upset head are taken as
stored is the model's choice (log 30). -/
def Obligations.ChainRetryAndDrop : Prop :=
  ∀ (p : Port) (seq : Byte) (c : Fin 4) (s : State), s.serves p →
    (∀ (i : SlotIx) (r : Record), s.head (chainIx p c) = some (i, r) → r.state = .halted →
      Answered (.chainRetry p seq [byte c.val]) s p seq .ok []
        (offerBus
          { s with slots := modAt s.slots i fun sl =>
            { gen := sl.gen, record := some { r with state := .queued, budgetLeft := r.budget, haltReason := .absent }
              codeMatches := true } }) ∧
      Answered (.chainDrop p seq [byte c.val]) s p seq .ok [] (offerBus (retire i r .dropped s))) ∧
    (s.chainState (chainIx p c) ≠ .halted →
      Refused (.chainRetry p seq [byte c.val]) s p seq .state ∧ Refused (.chainDrop p seq [byte c.val]) s p seq .state) ∧
    ∀ body : List Byte, parseChain body = none →
      Refused (.chainRetry p seq body) s p seq .badfield ∧ Refused (.chainDrop p seq body) s p seq .badfield

/-- CHAIN FLUSH retires every record of the chain CANCELLED in chain order, but an ACTIVE head, which has its cancel-pending flag
set as a CANCEL sets it: a head whose flag is set already is not written (R15); the answer is how many were retired and whether an
ACTIVE head was left (R40). That the fields of an upset slot are taken as stored is the model's choice (log 30). -/
def Obligations.ChainFlushRetires : Prop :=
  ∀ (p : Port) (seq : Byte) (c : Fin 4) (s : State), s.serves p →
    let list := s.chains[chainIx p c].list
    (s.head (chainIx p c) = none → Answered (.chainFlush p seq [byte c.val]) s p seq .ok [0, 0] s) ∧
    (∀ (i : SlotIx) (r : Record), s.head (chainIx p c) = some (i, r) →
      (r.state ≠ .active →
        Answered (.chainFlush p seq [byte c.val]) s p seq .ok [byte list.length, 0]
          (list.foldl (fun t j => retireSlot j .cancelled t) s)) ∧
      (r.state = .active →
        Answered (.chainFlush p seq [byte c.val]) s p seq .ok [byte list.tail.length, 1]
          (list.tail.foldl (fun t j => retireSlot j .cancelled t)
            (if r.cancelPending then s
             else
              { s with slots := modAt s.slots i fun sl =>
                { gen := sl.gen, record := some { r with cancelPending := true }, codeMatches := true } })))) ∧
    ∀ body : List Byte, parseChain body = none → Refused (.chainFlush p seq body) s p seq .badfield

/-- CHAIN QUERY of a chain whose slots all verify returns its view and changes nothing; otherwise every mismatched slot becomes
DAMAGED, one store fault is taken for the event, and the answer is FAULTED with no body (R41, R158). TARGET QUERY returns an entry
of the Target Table and changes nothing (R59). The codes of both are those of section 12.5. -/
def Obligations.ChainAndTargetQueries : Prop :=
  ([.empty, .ready, .busy, .halted].map ChainState.code = [0, 1, 2, 3] ∧
   [.unknown, .present, .silent].map Presence.code = [0, 1, 2]) ∧
  ∀ (p : Port) (seq : Byte) (body : List Byte) (s : State), s.serves p →
    (∀ (c : Fin 4) (start : Nat), parseChainQuery body = some (c, start) →
      let ch := s.chains[chainIx p c]
      ((∀ i ∈ ch.list, s.slots[i].codeMatches = true) →
        Answered (.chainQuery p seq body) s p seq .ok
          ([(s.chainState (chainIx p c)).code, if ch.hold then 1 else 0, byte ch.priority, byte ch.burst, byte ch.age,
              byte ch.list.length, byte start] ++
            ((ch.list.drop start).take 24).flatMap fun i => [byte i.val, s.slots[i].gen]) s) ∧
      ((∃ i ∈ ch.list, s.slots[i].codeMatches = false) →
        Answered (.chainQuery p seq body) s p seq .faulted []
          (storeFault ((ch.list.filter fun i => !s.slots[i].codeMatches).foldl (fun t i => damageSlot i t) s)))) ∧
    (∀ t : Fin 63, parseTarget body = some t →
      Answered (.targetQuery p seq body) s p seq .ok
        ([if s.targets[t].parity then 1 else 0, s.targets[t].presence.code, byte s.targets[t].run,
            if s.targets[t].lastSweep.isSome then 1 else 0] ++ wordBytes (s.targets[t].lastSweep.getD 0)) s) ∧
    (parseChainQuery body = none → Refused (.chainQuery p seq body) s p seq .badfield) ∧
    (parseTarget body = none → Refused (.targetQuery p seq body) s p seq .badfield)

/-! ### The Poll Plan and snapshots (06) -/

/-- POLL CREATE after attachment (R108), with its checks in their order, and POLL CHANGE (R107, R109). The EXISTS answers carry the
other entry's index (R166): that of an in-use entry, at POLL CHANGE another than the one changed, with the target, first register
and count of the definition (R97); without such an entry there is no EXISTS. -/
def Obligations.PollCreateAndChange : Prop :=
  (∀ (d : PollDef) (except : Option PollIx) (s : State),
    (∀ j : PollIx, s.sameIdentity d except = some j →
      some j ≠ except ∧ ∃ b : PollBody, s.polls[j].body = some b ∧ b.target = d.target ∧ b.span = d.span) ∧
    (s.sameIdentity d except = none ↔
      ∀ (j : PollIx) (b : PollBody), some j ≠ except → s.polls[j].body = some b → ¬ (b.target = d.target ∧ b.span = d.span))) ∧
  ∀ (p : Port) (seq : Byte) (body : List Byte) (s : State), s.serves p →
    (parsePollDef body = none → Refused (.pollCreate p seq body) s p seq .badfield) ∧
    (∀ d : PollDef, parsePollDef body = some d →
      (s.withheld p d.target = true → Refused (.pollCreate p seq body) s p seq .fenced) ∧
      (s.withheld p d.target = false →
        (∀ j : PollIx, s.sameIdentity d none = some j →
          Answered (.pollCreate p seq body) s p seq .exist [byte j.val] s) ∧
        (s.sameIdentity d none = none →
          ((∀ i : PollIx, s.polls[i].body ≠ none) → Refused (.pollCreate p seq body) s p seq .full) ∧
          ∀ i : PollIx, s.polls[i].body = none → (∀ j : PollIx, j < i → s.polls[j].body ≠ none) →
            Answered (.pollCreate p seq body) s p seq .ok [byte i.val]
              { s with polls := modAt s.polls i fun en =>
                { edit := en.edit + 1
                  body := some
                    { paused := false, target := d.target, span := d.span, period := d.period, phase := d.phase,
                      creator := some p, missed := 0
                      snap :=
                        { words := List.replicate d.span.count 0, srcTarget := d.target, srcSpan := d.span,
                          valid := false, seq := 0, age := 0, failRun := 0, stale := false, last := none } } } }))) ∧
    (parsePollChange body = none → Refused (.pollChange p seq body) s p seq .badfield) ∧
    ∀ (i : PollIx) (d : PollDef), parsePollChange body = some (i, d) →
      (s.polls[i].body = none → Refused (.pollChange p seq body) s p seq .nosuch) ∧
      ∀ b : PollBody, s.polls[i].body = some b →
        (b.creator ≠ some p → Refused (.pollChange p seq body) s p seq .notowner) ∧
        (b.creator = some p →
          (∀ j : PollIx, s.sameIdentity d (some i) = some j →
            Answered (.pollChange p seq body) s p seq .exist [byte j.val] s) ∧
          (s.sameIdentity d (some i) = none →
            Answered (.pollChange p seq body) s p seq .ok []
              { s with polls := modAt s.polls i fun en =>
                { edit := en.edit + 1
                  body := some { b with
                    target := d.target, span := d.span, period := d.period, phase := d.phase
                    snap := { b.snap with valid := false } } } }))

/-- The other requests of one poll entry: PAUSE and RESUME, DELETE and ADOPT, with the checks of R107 in their order; an entry
leaves the pending list at PAUSE and DELETE, and a poll phase left with nothing to poll ends (R88, R99, R110 to R112). -/
def Obligations.PollEntryRequests : Prop :=
  ∀ (p : Port) (seq : Byte) (i : PollIx) (s : State), s.serves p →
    let body : List Byte := [byte i.val]
    let off : Vector PollEntry 48 → State := fun ps =>
      phaseTest { s with polls := ps, pollPending := s.pollPending.filter (· != i) }
    (s.polls[i].body = none →
      Refused (.pollPause p seq body) s p seq .nosuch ∧ Refused (.pollResume p seq body) s p seq .nosuch ∧
      Refused (.pollDelete p seq body) s p seq .nosuch ∧ Refused (.pollAdopt p seq body) s p seq .nosuch) ∧
    (∀ b : PollBody, s.polls[i].body = some b →
      (b.creator ≠ some p →
        Refused (.pollPause p seq body) s p seq .notowner ∧ Refused (.pollResume p seq body) s p seq .notowner ∧
        Refused (.pollDelete p seq body) s p seq .notowner) ∧
      (b.creator = some p →
        (b.paused = true → Answered (.pollPause p seq body) s p seq .ok [] s) ∧
        (b.paused = false → Answered (.pollPause p seq body) s p seq .ok []
          (off (modAt s.polls i fun en => { en with body := some { b with paused := true } }))) ∧
        Answered (.pollResume p seq body) s p seq .ok []
          { s with polls := modAt s.polls i fun en => { en with body := some { b with paused := false } } } ∧
        Answered (.pollDelete p seq body) s p seq .ok []
          (off (modAt s.polls i fun en => { edit := en.edit + 1, body := none }))) ∧
      (b.creator ≠ none → Refused (.pollAdopt p seq body) s p seq .state) ∧
      (b.creator = none → Answered (.pollAdopt p seq body) s p seq .ok []
        { s with polls := modAt s.polls i fun en => { en with body := some { b with creator := some p } } })) ∧
    ∀ bad : List Byte, parsePollIx bad = none →
      Refused (.pollPause p seq bad) s p seq .badfield ∧ Refused (.pollResume p seq bad) s p seq .badfield ∧
      Refused (.pollDelete p seq bad) s p seq .badfield ∧ Refused (.pollAdopt p seq bad) s p seq .badfield

/-- SNAP READ returns the entry and its snapshot as section 12.3 lays them out, and changes nothing; when the target or the
snapshot's source is withheld, the answer is FENCED with the same body less the value words (R107, R113, R178). That the flag byte's
other bits are sent 0 is the model's choice (log 28), and so is that the words held are sent even where 256 edits during a poll made
their number differ from the source's count (log 32). -/
def Obligations.SnapshotRead : Prop :=
  ∀ (p : Port) (seq : Byte) (body : List Byte) (s : State), s.serves p →
    (parsePollIx body = none → Refused (.snapRead p seq body) s p seq .badfield) ∧
    ∀ i : PollIx, parsePollIx body = some i →
      (s.polls[i].body = none → Refused (.snapRead p seq body) s p seq .nosuch) ∧
      ∀ b : PollBody, s.polls[i].body = some b →
        let hidden := s.withheld p b.target || s.withheld p b.snap.srcTarget
        let flags : Byte :=
          (if hidden then 4 else 0) ||| (if b.snap.stale then 2 else 0) ||| (if b.snap.valid then 1 else 0)
        let image : List Byte :=
          [byte i.val, if b.paused then 2 else 1, b.target.zeroExtend 8] ++ wordBytes b.span.word ++
          [byte b.period, byte b.phase, (b.creator.map fun q => byte q.val).getD 0xFF, s.polls[i].edit, byte b.missed,
            b.snap.srcTarget.zeroExtend 8] ++ wordBytes b.snap.srcSpan.word ++ [flags] ++ wordBytes b.snap.seq ++
          [byte b.snap.age, byte b.snap.failRun, (b.snap.last.map Outcome.code).getD 0]
        (hidden = false →
          Answered (.snapRead p seq body) s p seq .ok (image ++ b.snap.words.flatMap wordBytes) s) ∧
        (hidden = true → Answered (.snapRead p seq body) s p seq .fenced image s)

/-- A poll outcome (R103 to R106): discarded unless the entry is in use with the edit count of the start; DONE writes the snapshot
(that the test of R103 decides also after 256 edits, which wrap the edit count, and the words are then written beside the identity
the entry has by that time, is the model's choice, log 32); LINE puts an ACTIVE entry back at the front, where it then stands once
(R99): that it is taken out of the rest of the list first is the model's reading (log 22); any other outcome counts a failure, and
at the third in a row the snapshot turns stale and the creator's STALE mark is set. -/
def Obligations.PollOutcomes : Prop :=
  ∀ (i : PollIx) (edit : Byte) (o : Outcome) (words : List Word) (s : State),
    let t := pollOutcome i edit o words s
    (s.polls[i].body = none ∨ s.polls[i].edit ≠ edit → t = s) ∧
    ∀ b : PollBody, s.polls[i].body = some b → s.polls[i].edit = edit →
      let put : Snapshot → State := fun sn =>
        { s with polls := modAt s.polls i fun en => { en with body := some { b with snap := sn } } }
      (o = .line → b.paused = false → t = { s with pollPending := i :: s.pollPending.filter (· != i) }) ∧
      (o = .line → b.paused = true → t = s) ∧
      (o = .done → t = put
        { words := words, srcTarget := b.target, srcSpan := b.span, valid := true, seq := b.snap.seq + 1, age := 0,
          failRun := 0, stale := false, last := some .done }) ∧
      (o ≠ .line → o ≠ .done → b.snap.failRun ≠ 2 → t = put
        { b.snap with failRun := min 15 (b.snap.failRun + 1), last := some o }) ∧
      (o ≠ .line → o ≠ .done → b.snap.failRun = 2 →
        let u := put { b.snap with failRun := 3, stale := true, last := some o }
        (b.creator = none → t = u) ∧ ∀ q : Port, b.creator = some q → t = mark .stale q u)

/-! ### Reservations (07) -/

/-- An entry matches an address of 1 to 63 when the two agree in every bit that the mask fixes; address 0 is matched by none (R117).
A record of port `p` is fenced exactly when an entry held by another port stands in the relation of R123 to it, and a target is
withheld from `p` exactly when a PRIVATE entry of another port matches it. -/
def Obligations.FenceQuery : Prop :=
  (∀ base mask t : BitVec 6, matches6 base mask t = true ↔ t ≠ 0 ∧ t &&& mask = base &&& mask) ∧
  ∀ (p : Port) (k : Kind) (t : BitVec 6) (s : State),
    (s.fenced p k t = true ↔
      ∃ (e : ResvIx) (a : Reservation), s.resvs[e] = some a ∧ a.owner ≠ p ∧
        match k with
        | .write | .modify => matches6 a.base a.mask t = true
        | .broadcast => True
        | .read => matches6 a.base a.mask t = true ∧ a.priv = true) ∧
    (s.withheld p t = true ↔
      ∃ (e : ResvIx) (a : Reservation), s.resvs[e] = some a ∧ a.owner ≠ p ∧ a.priv = true ∧
        matches6 a.base a.mask t = true)

/-- CLAIM after attachment, with its checks in their order (R118). -/
def Obligations.ClaimAddsEntry : Prop :=
  ∀ (p : Port) (seq : Byte) (body : List Byte) (s : State), s.serves p →
    (parseClaim body = none → Refused (.claim p seq body) s p seq .badfield) ∧
    ∀ (base mask : BitVec 6) (priv : Bool) (lease : Nat), parseClaim body = some (base, mask, priv, lease) →
      ((∃ (e : ResvIx) (a : Reservation) (t : BitVec 6), s.resvs[e] = some a ∧ a.owner ≠ p ∧
          matches6 base mask t = true ∧ matches6 a.base a.mask t = true) →
        Refused (.claim p seq body) s p seq .conflict) ∧
      ((∀ (e : ResvIx) (a : Reservation) (t : BitVec 6), s.resvs[e] = some a → a.owner ≠ p →
          ¬ (matches6 base mask t = true ∧ matches6 a.base a.mask t = true)) →
        ((∀ e : ResvIx, s.resvs[e] ≠ none) → Refused (.claim p seq body) s p seq .full) ∧
        ∀ e : ResvIx, s.resvs[e] = none → (∀ f : ResvIx, f < e → s.resvs[f] ≠ none) →
          Answered (.claim p seq body) s p seq .ok [byte e.val]
            { s with resvs := modAt s.resvs e fun _ =>
                (some { owner := p, base := base, mask := mask, priv := priv, lease := lease, remaining := lease }) })

/-- RENEW restores the lease remaining and RELEASE frees the entry, raising no cause; both are checked for index, entry and owner in
that order (R119, R120). CLAIM QUERY returns the table and changes nothing (R122); that bits 6 to 3 of an entry's first byte are
sent 0 is the model's choice (log 28). -/
def Obligations.RenewReleaseQuery : Prop :=
  ∀ (p : Port) (seq : Byte) (body : List Byte) (s : State), s.serves p →
    (parseResvIx body = none →
      Refused (.renew p seq body) s p seq .badfield ∧ Refused (.release p seq body) s p seq .badfield) ∧
    (∀ e : ResvIx, parseResvIx body = some e →
      (s.resvs[e] = none → Refused (.renew p seq body) s p seq .nosuch ∧ Refused (.release p seq body) s p seq .nosuch) ∧
      ∀ a : Reservation, s.resvs[e] = some a →
        (a.owner ≠ p →
          Refused (.renew p seq body) s p seq .notowner ∧ Refused (.release p seq body) s p seq .notowner) ∧
        (a.owner = p →
          Answered (.renew p seq body) s p seq .ok []
            { s with resvs := modAt s.resvs e fun _ => some { a with remaining := a.lease } } ∧
          Answered (.release p seq body) s p seq .ok [] { s with resvs := modAt s.resvs e fun _ => none })) ∧
    Answered (.claimQuery p seq []) s p seq .ok
      ((List.finRange 8).flatMap fun e =>
        match s.resvs[e] with
        | none => [0, 0, 0, 0, 0]
        | some a =>
          [(0x80 : Byte) ||| (if a.priv then 4 else 0) ||| byte a.owner.val, a.base.zeroExtend 8, a.mask.zeroExtend 8,
            byte a.lease, byte a.remaining]) s ∧
    (body ≠ [] → Refused (.claimQuery p seq body) s p seq .badfield)

/-! ### Reports and notification (08) -/

/-- FETCH returns the note of the oldest slot of the port's queue, as section 12.3 lays it out, and frees the slot; a mismatched
code is a store fault; an empty queue is EMPTY (R5, R131 to R133). That bits 7 and 6 of the note's byte 2 are sent 0 is the model's
choice (log 28), and so is that the freed slot's check code, to which section 1.5 gives no value, is held as matching (log 5); that
the slot is taken out of every list is its reading (log 19). The kinds and end kinds are coded as section 12.3 has them. -/
def Obligations.FetchTakesOldestNote : Prop :=
  ([.read, .write, .modify, .broadcast].map Kind.code = [0, 1, 2, 3] ∧
   [.completed, .cancelled, .skipped, .dropped, .damaged].map EndKind.code = [0, 1, 2, 3, 4]) ∧
  ∀ (p : Port) (seq : Byte) (body : List Byte) (s : State), s.serves p →
    (body ≠ [] → Refused (.fetch p seq body) s p seq .badfield) ∧
    (s.reports[p].queue = [] → Refused (.fetch p seq []) s p seq .empty) ∧
    ∀ (i : SlotIx) (rest : List SlotIx) (r : Record), s.reports[p].queue = i :: rest → s.record i = some r →
      (s.slots[i].codeMatches = false → Answered (.fetch p seq []) s p seq .faulted [] (storeFault (damageSlot i s))) ∧
      (s.slots[i].codeMatches = true →
        Answered (.fetch p seq []) s p seq .ok
          ([byte i.val, s.slots[i].gen,
              (if r.cancelLate then 0x20 else 0) ||| (if r.cancelPending then 0x10 else 0) ||| byte (4 * r.chain.val) |||
                r.kind.code.zeroExtend 8,
              r.target.zeroExtend 8] ++
            wordBytes r.span.word ++ wordBytes r.tag ++
            [(r.endKind.map EndKind.code).getD 0, r.lastOutcome.code Outcome.code, r.haltReason.code HaltReason.code,
              byte r.attempts, byte r.budgetLeft] ++
            wordBytes r.postedSweep ++ wordBytes (r.completionSweep.getD 0) ++
            (match r.result with
             | .absent => [0, 0]
             | .words ws => if ws.length ≤ 16 then 1 :: byte ws.length :: ws.flatMap wordBytes else [0, 0]
             | .pair old written => 2 :: 2 :: (wordBytes old ++ wordBytes written)))
          { unlist i s with slots := modAt s.slots i fun sl => { gen := sl.gen + 1, record := none, codeMatches := true } })

/-- NOTIFY SET writes the eight enables and NOTIFY ACK clears the pending flags it names; each answers with the flags and enables as
they then stand, and neither touches a mark (R138, R139). The NOTIFY output (R140), and what a turnover makes of the marks set
before it at an attached port (R84, R136). When an exchange's end set marks in the turnover's own event, the earlier marks become
pending, and the event's own either become pending with them (R63, R82) or stay marks for the following turnover (R84, R136), the
same at every port and turnover: the rules disagree, and which holds is a free value (log 7). An immediate cause sets its pending
flag, and a deferred one its mark, at an attached port alone, be it raised at one port or at all (R135 to R137); each cause has its
bit of section 12.5. -/
def Obligations.NotifyFlags : Prop :=
  ([.report, .halt, .stale, .target, .lease, .proposal, .decided, .fault].map Cause.bit =
     (List.range 8).map fun n => BitVec.twoPow 8 n) ∧
  ([.report, .halt, .stale, .target].map Deferred.bit = (List.range 4).map fun n => BitVec.twoPow 4 n) ∧
  (∀ (c : Cause) (p : Port) (s : State),
     let one := raise c p s
     let all := raiseAll c s
     one = { s with reports := one.reports } ∧ all = { s with reports := all.reports } ∧
     ∀ q : Port,
       let set : Report := { s.reports[q] with pending := s.reports[q].pending ||| c.bit }
       (s.attached q = true → all.reports[q] = set ∧ (q = p → one.reports[q] = set)) ∧
       (s.attached q = false → all.reports[q] = s.reports[q]) ∧
       (s.attached q = false ∨ q ≠ p → one.reports[q] = s.reports[q])) ∧
  (∀ (d : Deferred) (p : Port) (s : State),
     let one := mark d p s
     let all := markAll d s
     one = { s with reports := one.reports } ∧ all = { s with reports := all.reports } ∧
     ∀ q : Port,
       let set : Report := { s.reports[q] with marks := s.reports[q].marks ||| d.bit }
       (s.attached q = true → all.reports[q] = set ∧ (q = p → one.reports[q] = set)) ∧
       (s.attached q = false → all.reports[q] = s.reports[q]) ∧
       (s.attached q = false ∨ q ≠ p → one.reports[q] = s.reports[q])) ∧
  (∀ (p : Port) (earlier : Marks) (s : State),
     s.marks[p] = s.reports[p].marks ∧
     clearMarks s = { s with reports := tab fun q => { s.reports[q] with marks := 0 } } ∧
     pendMarks earlier s = { s with reports := (pendMarks earlier s).reports } ∧
     (s.attached p = false →
       (pendMarks earlier s).reports[p] = { s.reports[p] with marks := s.reports[p].marks ||| earlier[p] })) ∧
  (∀ (p : Port) (seq b : Byte) (body : List Byte) (s : State), s.serves p →
     Answered (.notifySet p seq [b]) s p seq .ok [s.reports[p].pending, b]
       { s with reports := modAt s.reports p fun r => { r with enables := b } } ∧
     Answered (.notifyAck p seq [b]) s p seq .ok [s.reports[p].pending &&& ~~~ b, s.reports[p].enables]
       { s with reports := modAt s.reports p fun r => { r with pending := r.pending &&& ~~~ b } } ∧
     (body.length ≠ 1 →
       Refused (.notifySet p seq body) s p seq .badfield ∧ Refused (.notifyAck p seq body) s p seq .badfield)) ∧
  (∀ (p : Port) (s : State),
    s.notify p = true ↔
      s.attached p = true ∧
        ∃ n : Fin 8, s.reports[p].pending.getLsbD n.val = true ∧ s.reports[p].enables.getLsbD n.val = true) ∧
  (∀ (p : Port) (s : State), s.attached p = true →
    (pendMarks s.marks (clearMarks s)).reports[p] =
      { s.reports[p] with pending := s.reports[p].pending ||| s.reports[p].marks.zeroExtend 8, marks := 0 }) ∧
  ((∀ (p : Port) (earlier : Marks) (s : State), s.attached p = true →
     (pendMarks earlier s).reports[p] =
       { s.reports[p] with
         pending := s.reports[p].pending ||| earlier[p].zeroExtend 8 ||| s.reports[p].marks.zeroExtend 8, marks := 0 }) ∨
   ∀ (p : Port) (earlier : Marks) (s : State), s.attached p = true →
     (pendMarks earlier s).reports[p] =
       { s.reports[p] with pending := s.reports[p].pending ||| earlier[p].zeroExtend 8 })

/-! ### Agreement (09, 10) -/

/-- A set of ports has bit n for Pn (section 12.5). Which kinds of proposal are valid in which scheduler state (R144). PROPOSE after
attachment, with its checks in their order; an accepted proposal has the next number, requires every attached port, is confirmed by
its proposer, and raises PROPOSAL at the other required ports; a proposer alone has it decided ADOPTED in the event (R86, R147). -/
def Obligations.ProposeMakesProposal : Prop :=
  (∀ (ps : PortSet) (p q : Port), ps.has p = ps.getLsbD p.val ∧ ((portSet p).has q = true ↔ q = p)) ∧
  (∀ (c : Change) (sched : Sched),
    c.valid sched = true ↔
      match c with
      | .sweepLength _ | .pollWindow _ | .quotas _ => True
      | .fieldRate _ | .start => sched = .stopped
      | .stop => sched = .running
      | .restart => sched = .faulted) ∧
  ∀ (p : Port) (seq : Byte) (body : List Byte) (s : State), s.serves p →
    (parseChange body = none → Refused (.propose p seq body) s p seq .badfield) ∧
    ∀ c : Change, parseChange body = some c →
      (s.proposal ≠ none → Refused (.propose p seq body) s p seq .busy) ∧
      (s.proposal = none → c.valid s.sched = false → Refused (.propose p seq body) s p seq .state) ∧
      (s.proposal = none → c.valid s.sched = true →
        ∃ pr : Proposal,
          pr = { number := s.lastNumber + 1, change := c, proposer := p, required := pr.required,
                 confirmed := pr.confirmed, window := 64 } ∧
          (∀ q : Port, pr.required.has q = s.attached q ∧ (pr.confirmed.has q = true ↔ q = p)) ∧
          let made : State :=
            { s with
              lastNumber := s.lastNumber + 1
              proposal := some pr
              reports := tab fun q =>
                if q ≠ p ∧ s.attached q = true then
                  { s.reports[q] with pending := s.reports[q].pending ||| Cause.proposal.bit }
                else s.reports[q] }
          ((∃ q : Port, q ≠ p ∧ s.attached q = true) →
            Answered (.propose p seq body) s p seq .ok [s.lastNumber + 1, 0] made) ∧
          ((∀ q : Port, q ≠ p → s.attached q = false) →
            Answered (.propose p seq body) s p seq .ok [s.lastNumber + 1, Verdict.adopted.code]
              (offerBus (decideProposal pr .adopted made))))

/-- CONFIRM after attachment, with its checks in their order: a consent that completes the required set decides the proposal
ADOPTED, or VOID when its kind is no longer valid; any other leaves it pending (R86, R145, R148). -/
def Obligations.ConfirmDecides : Prop :=
  ∀ (p : Port) (seq n : Byte) (body : List Byte) (s : State), s.serves p →
    (body.length ≠ 1 → Refused (.confirm p seq body) s p seq .badfield) ∧
    ((∀ pr : Proposal, s.proposal = some pr → pr.number ≠ n) → Refused (.confirm p seq [n]) s p seq .nosuch) ∧
    ∀ pr : Proposal, s.proposal = some pr → pr.number = n →
      let joined : Proposal := { pr with confirmed := pr.confirmed ||| portSet p }
      (pr.required.has p = false → Refused (.confirm p seq [n]) s p seq .state) ∧
      (pr.required.has p = true → pr.confirmed.has p = true → Answered (.confirm p seq [n]) s p seq .ok [0] s) ∧
      (pr.required.has p = true → pr.confirmed.has p = false →
        ((∃ q : Port, pr.required.has q = true ∧ joined.confirmed.has q = false) →
          Answered (.confirm p seq [n]) s p seq .ok [0] { s with proposal := some joined }) ∧
        ((∀ q : Port, pr.required.has q = true → joined.confirmed.has q = true) →
          (pr.change.valid s.sched = true →
            Answered (.confirm p seq [n]) s p seq .ok [Verdict.adopted.code]
              (offerBus (decideProposal joined .adopted s))) ∧
          (pr.change.valid s.sched = false →
            Answered (.confirm p seq [n]) s p seq .ok [Verdict.void.code] (offerBus (decideProposal joined .void s)))))

/-- DECLINE by a required port and WITHDRAW by the proposer decide the proposal at once, with their checks in order (R149). AGREE
QUERY returns the pending proposal and the decision record as R179 lays them out, with the codes of section 12.5, and changes
nothing (R152). -/
def Obligations.DeclineWithdrawQuery : Prop :=
  ([.adopted, .declined, .lapsed, .withdrawn, .void].map Verdict.code = [1, 2, 3, 4, 5]) ∧
  (∀ c : Change, c.bytes = c.code :: c.bytes.tail ∧ c.values = (c.bytes.tail ++ [0, 0, 0, 0]).take 4) ∧
  ∀ (p : Port) (seq n : Byte) (body : List Byte) (s : State), s.serves p →
    (body.length ≠ 1 →
      Refused (.decline p seq body) s p seq .badfield ∧ Refused (.withdraw p seq body) s p seq .badfield) ∧
    ((∀ pr : Proposal, s.proposal = some pr → pr.number ≠ n) →
      Refused (.decline p seq [n]) s p seq .nosuch ∧ Refused (.withdraw p seq [n]) s p seq .nosuch) ∧
    (∀ pr : Proposal, s.proposal = some pr → pr.number = n →
      (pr.required.has p = false → Refused (.decline p seq [n]) s p seq .state) ∧
      (pr.required.has p = true → Answered (.decline p seq [n]) s p seq .ok [] (decideProposal pr .declined s)) ∧
      (pr.proposer ≠ p → Refused (.withdraw p seq [n]) s p seq .notowner) ∧
      (pr.proposer = p → Answered (.withdraw p seq [n]) s p seq .ok [] (decideProposal pr .withdrawn s))) ∧
    (body ≠ [] → Refused (.agreeQuery p seq body) s p seq .badfield) ∧
    Answered (.agreeQuery p seq []) s p seq .ok
      ((match s.proposal with
        | none => List.replicate 11 0
        | some pr => [1, pr.number, pr.change.code] ++ pr.change.values ++
            [byte pr.proposer.val, pr.required.zeroExtend 8, pr.confirmed.zeroExtend 8, byte pr.window]) ++
       (match s.decision with
        | none => List.replicate 10 0
        | some d => [1, d.number, d.change.code] ++ d.change.values ++
            [byte d.proposer.val, d.confirmed.zeroExtend 8, d.verdict.code])) s

/-- A decision (R145, R146): an ADOPTED change is applied by its owner, no other outcome applies any; then the decision record is
written, the proposal is absent, and DECIDED is raised at every attached port. -/
def Obligations.DecisionsApplied : Prop :=
  (∀ (pr : Proposal) (v : Verdict) (s : State),
    decideProposal pr v s =
      raiseAll .decided
        { (if v = .adopted then applyChange pr.change s else s) with
          decision := some
            { number := pr.number, change := pr.change, proposer := pr.proposer, confirmed := pr.confirmed, verdict := v }
          proposal := none }) ∧
  ∀ s : State,
    (∀ ms : Nat, applyChange (.sweepLength ms) s = { s with nextSweepLength := some ms }) ∧
    (∀ w : Nat, applyChange (.pollWindow w) s = { s with nextPollWindow := some w }) ∧
    (∀ q : Vector Nat 4, applyChange (.quotas q) s = { s with quotas := q }) ∧
    (∀ r : Rate, applyChange (.fieldRate r) s = { s with rate := r, run := 0, releasedCount := 0 }) ∧
    (s.exchange = none → applyChange .stop s = { s with grant := none, sched := .stopped }) ∧
    (s.exchange ≠ none → applyChange .stop s = { s with grant := none, sched := .draining }) ∧
    applyChange .start s = { s with sched := .running }

/-- RESTART (R161): the scheduler becomes RUNNING; a DAMAGED slot of an attached owner is retired DAMAGED with its generation and
stored fields kept, one without an owner is freed with its generation raised, and every other slot is left. The retired slots stand
at the tail of their owner's report queue in ascending slot number, and the chains are unchanged. A DAMAGED slot whose owner is not
attached, which no run reaches, is freed (log 16). -/
def Obligations.RestartDisposesDamaged : Prop :=
  ∀ s : State,
    let t := applyChange .restart s
    t = { s with slots := t.slots, chains := t.chains, reports := t.reports, sched := .running } ∧
    (∀ i : SlotIx, s.record i = none → t.slots[i] = s.slots[i]) ∧
    (∀ (i : SlotIx) (r : Record), s.record i = some r →
      (r.state ≠ .damaged → t.slots[i] = s.slots[i]) ∧
      (r.state = .damaged → (∀ p : Port, r.owner = some p → s.attached p = false) →
        t.record i = none ∧ t.slots[i].gen = s.slots[i].gen + 1) ∧
      (∀ p : Port, r.state = .damaged → r.owner = some p → s.attached p = true →
        t.record i =
          some { r with state := .done, endKind := some .damaged, completionSweep := some s.sweep } ∧
        t.slots[i].gen = s.slots[i].gen ∧ i ∈ t.reports[p].queue ∧
        t.reports[p].marks.getLsbD 0 = true)) ∧
    (s.ListsSound →
      t.chains = s.chains ∧
      ∀ p : Port,
        ∃ joined : List SlotIx,
          t.reports[p].queue = s.reports[p].queue ++ joined ∧ joined.Pairwise (· < ·) ∧
          ∀ i : SlotIx, i ∈ joined ↔
            s.attached p = true ∧ ∃ r : Record, s.record i = some r ∧ r.state = .damaged ∧ r.owner = some p)

/-! ### Sweeps and the turnover (05) -/

/-- SWEEP_TIMER_EXPIRY takes the turnover when the engine is idle; while an exchange is in progress it is an overrun, which sets the
expired flag, counts saturating at 255, ends the grant, and disturbs nothing else (R80 to R82). An expiry of a timer that has
already expired changes nothing (log 3). -/
def Obligations.TimerExpiry : Prop :=
  ∀ s : State,
    (s.exchange = none → exec .sweepTimerExpiry s = .next (turnoverNow s)) ∧
    (s.exchange ≠ none → s.expired = false →
      exec .sweepTimerExpiry s =
        .next { s with expired := true, overruns := min 255 (s.overruns + 1), grant := none }) ∧
    (s.exchange ≠ none → s.expired = true → exec .sweepTimerExpiry s = .next s)

/-- The turnover (R83, R84): the five steps of the Sweep Controller, every block's reaction on the new sweep, then the end test of
the poll phase and the offer. The five commands that name a turnover or one of its reactions take it when the engine is idle (R82)
and the reaction they name takes place in it; that they are this one event is the model's reading (logs 3, 4), and so is the order
of the reactions (log 24). -/
def Obligations.TurnoverEvent : Prop :=
  (∀ s : State,
    advanceSweep s =
      { s with
        sweep := s.sweep + 1
        sweepLength := s.nextSweepLength.getD s.sweepLength
        nextSweepLength := none
        timerLength := s.nextSweepLength.getD s.sweepLength
        expired := false
        pollWindow := s.nextPollWindow.getD s.pollWindow
        nextPollWindow := none
        pollsRun := 0
        phase := .poll } ∧
    turnoverNow s =
      offerBus
        (lowerWindow
          ((List.finRange 8).foldl lowerLease
            ((List.finRange 16).foldl checkDeadline
              (pollTurnover (pendMarks s.marks (advanceSweep (clearMarks s)))))))) ∧
  ∀ s : State, s.exchange = none →
    exec .turnover s = .next (turnoverNow s) ∧
    (∀ (c : ChainIx) (i : SlotIx) (r : Record), s.head c = some (i, r) → r.state = .queued → r.deadline ≠ 0 →
      r.deadline < (s.sweep + 1 - r.postedSweep).toNat → exec (.headDeadlineExpiry c) s = .next (turnoverNow s)) ∧
    (∀ (e : ResvIx) (a : Reservation), s.resvs[e] = some a → a.remaining ≤ 1 →
      exec (.leaseExpiry e) s = .next (turnoverNow s)) ∧
    (∀ pr : Proposal, s.proposal = some pr → pr.window ≤ 1 → exec .proposalLapsed s = .next (turnoverNow s)) ∧
    ∀ (i : PollIx) (b : PollBody), s.polls[i].body = some b → b.paused = false →
      (s.sweep + 1).toNat % b.period = b.phase → exec (.pollDue i) s = .next (turnoverNow s)

/-- The deadline check of the heads (R34): a QUEUED head that has waited more turnovers than its non-zero deadline becomes HALTED
EXPIRED, with the HALT mark of its chain's port; any other head, and every other slot of the store, is left. What a turnover does to
a held lease and to a pending proposal: each count falls by 1; at 0 the entry is FREE and LEASE is raised at its owner, and the
proposal is decided LAPSED (R121, R150). That the posted sweep of an upset slot is taken as stored is the model's choice (log
30). -/
def Obligations.TurnoverCounts : Prop :=
  (∀ (c : ChainIx) (i : SlotIx) (r : Record) (s : State), s.head c = some (i, r) →
     (r.state = .queued → r.deadline ≠ 0 → r.deadline < (s.sweep - r.postedSweep).toNat →
       checkDeadline s c =
         mark .halt (chainPort c)
           { s with slots := modAt s.slots i fun sl =>
             { gen := sl.gen, record := some { r with state := .halted, haltReason := .known .expired }
               codeMatches := true } }) ∧
     (r.state ≠ .queued ∨ r.deadline = 0 ∨ (s.sweep - r.postedSweep).toNat ≤ r.deadline → checkDeadline s c = s)) ∧
  (∀ (e : ResvIx) (s : State),
    (s.resvs[e] = none → lowerLease s e = s) ∧
    ∀ a : Reservation, s.resvs[e] = some a →
      (1 < a.remaining →
        lowerLease s e =
          { s with resvs := modAt s.resvs e fun _ => some { a with remaining := a.remaining - 1 } }) ∧
      (a.remaining = 1 →
        lowerLease s e = raise .lease a.owner { s with resvs := modAt s.resvs e fun _ => none })) ∧
  ∀ s : State,
    (s.proposal = none → lowerWindow s = s) ∧
    ∀ pr : Proposal, s.proposal = some pr →
      (1 < pr.window → lowerWindow s = { s with proposal := some { pr with window := pr.window - 1 } }) ∧
      (pr.window = 1 → lowerWindow s = decideProposal { pr with window := 0 } .lapsed s)

/-- What a turnover does to the Poll Plan (R98): every in-use entry's snapshot ages, saturating at 255; the due ACTIVE entries not
yet pending join the pending list behind it in ascending order; a due entry already pending is counted as missed. The poll phase
ends when the engine is idle and nothing is pending or the window is reached (R88). An offer of the bus in the poll phase: entries
at the front whose target is SILENT and had an exchange fewer than 16 turnovers ago are taken off the list (R101); the next entry's
READ starts and counts in polls run (R87, R100); with no entry left the phase ends and the bus is offered on (R88). -/
def Obligations.PollsFallDue : Prop :=
  (∀ (i : PollIx) (b : PollBody) (n : Fin 63) (s : State), s.polls[i].body = some b → b.target.toNat = n.val + 1 →
    (s.skips i = true ↔
      s.targets[n].presence = .silent ∧ ∃ last : Word, s.targets[n].lastSweep = some last ∧ (s.sweep - last).toNat < 16)) ∧
  (∀ s : State,
    let ends := s.phase = .poll ∧ s.exchange = none ∧ (s.pollPending = [] ∨ s.pollWindow ≤ s.pollsRun)
    (ends → phaseTest s = { s with phase := .chain }) ∧ (¬ ends → phaseTest s = s) ∧
    offerBus s = offerBus (phaseTest s)) ∧
  (∀ (gone : List PollIx) (s : State),
    s.mayOffer = true → s.phase = .poll → s.pollsRun < s.pollWindow → (∀ i ∈ gone, s.skips i = true) →
    (s.pollPending = gone → offerBus s = offerBus { s with pollPending := [], phase := .chain }) ∧
    ∀ (i : PollIx) (rest : List PollIx) (b : PollBody),
      s.pollPending = gone ++ i :: rest → s.skips i = false → s.polls[i].body = some b →
      ∃ e : Exchange,
        offerBus s = { s with pollPending := rest, pollsRun := s.pollsRun + 1, exchange := some e } ∧
        e.origin = .poll i s.polls[i].edit ∧ e.phase = .single ∧ e.op = .read ∧ e.target = b.target ∧ e.span = b.span ∧
        e.parity = false ∧ e.send = [] ∧ e.oldValue = none ∧ e.stage = .preamble ∧ e.replyStart = false ∧ e.held = none ∧
        e.count = 0) ∧
  ∀ s : State,
    let t := pollTurnover s
    let due : PollIx → Prop := fun i =>
      ∃ b : PollBody, s.polls[i].body = some b ∧ b.paused = false ∧ s.sweep.toNat % b.period = b.phase
    t = { s with polls := t.polls, pollPending := t.pollPending } ∧
    (∃ joining : List PollIx,
      t.pollPending = s.pollPending ++ joining ∧ joining.Pairwise (· < ·) ∧
      ∀ i : PollIx, i ∈ joining ↔ due i ∧ i ∉ s.pollPending) ∧
    ∀ i : PollIx,
      t.polls[i].edit = s.polls[i].edit ∧
      (s.polls[i].body = none → t.polls[i].body = none) ∧
      ∀ b : PollBody, s.polls[i].body = some b →
        ∃ m : Nat,
          t.polls[i].body = some { b with missed := m, snap := { b.snap with age := min 255 (b.snap.age + 1) } } ∧
          (due i → i ∈ s.pollPending → m = min 255 (b.missed + 1)) ∧ (¬ due i ∨ i ∉ s.pollPending → m = b.missed)

/-! ### The Field Arbiter (05) and the try start (02) -/

/-- A chain's state follows from its head: EMPTY without one, READY, BUSY or HALTED as it is QUEUED, ACTIVE or HALTED (R21, R22). A
chain is eligible under the four conditions of R25. The arbiter's choice (R92, R93): an eligible chain of the highest rank, and
among those the first after the pointer; none when no chain is eligible. The bus is offered under the five conditions of R86, and
otherwise nothing is started; offered in the CHAIN phase, the chosen chain is granted and its try started, after which the bus is
offered again if it is still free, and with no chain to choose nothing happens (R86, R90). A grant sets the granted chain's age to
0, adds 1 to the age of every other eligible chain, saturating at 15, leaves the other chains, sets the pointer to the granted
chain, and begins the grant with no completion (R31, R94). -/
def Obligations.ArbiterGrants : Prop :=
  (∀ (c : ChainIx) (s : State),
     (s.chains[c].list = [] → s.head c = none ∧ s.chainState c = .empty) ∧
     ∀ (i : SlotIx) (rest : List SlotIx) (r : Record), s.chains[c].list = i :: rest → s.record i = some r →
       s.head c = some (i, r) ∧
       (r.state = .queued → s.chainState c = .ready) ∧
       (r.state = .active → s.chainState c = .busy) ∧
       (r.state = .halted → s.chainState c = .halted)) ∧
  (∀ s : State,
     let rank : ChainIx → Nat := fun c => if 8 ≤ s.chains[c].age then 4 else s.chains[c].priority
     let after : ChainIx → Nat := fun c => (c.val + 15 - s.pointer.val) % 16
     (∀ c : ChainIx, s.eligible c = true ↔
       s.chainState c = .ready ∧ s.chains[c].hold = false ∧ s.sched = .running ∧ s.line = .ok) ∧
     (∀ c : ChainIx, s.choice = some c ↔
       s.eligible c = true ∧
         ∀ d : ChainIx, s.eligible d = true → rank d < rank c ∨ (rank d = rank c ∧ after c ≤ after d)) ∧
     (s.choice = none ↔ ∀ c : ChainIx, s.eligible c = false)) ∧
  (∀ s : State,
     (s.mayOffer = true ↔
       s.exchange = none ∧ s.grant = none ∧ s.expired = false ∧ s.sched = .running ∧ s.line = .ok) ∧
     (s.mayOffer = false → offerBus s = phaseTest s) ∧
     (s.mayOffer = true → s.phase = .chain →
       (s.choice = none → offerBus s = s) ∧
       ∀ c : ChainIx, s.choice = some c → offerBus s = offerBus (tryStart c (grantTo c s)))) ∧
  ∀ (c : ChainIx) (s : State),
    let t := grantTo c s
    t = { s with chains := t.chains, pointer := c, grant := some { chain := c, completed := 0 } } ∧
    t.chains[c] = { s.chains[c] with age := 0 } ∧
    ∀ d : ChainIx, d ≠ c →
      (s.eligible d = true → t.chains[d] = { s.chains[d] with age := min 15 (s.chains[d].age + 1) }) ∧
      (s.eligible d = false → t.chains[d] = s.chains[d])

/-- A try start (R26): a mismatched head becomes DAMAGED with a store fault; a fenced head becomes HALTED FENCED, its other fields
unchanged; any other head becomes ACTIVE and its first exchange starts (R47, R48, R53, R55). In the first two cases no exchange
starts and the grant ends. That a record which an upset left out of the ranges of R1, and whose code was written anew, is tried with
its fields as stored is the model's choice (log 29). The write parity is that of the target's entry in the Target Table (R45). -/
def Obligations.TryStartByChecks : Prop :=
  (∀ (n : Fin 63) (t : BitVec 6) (s : State), t.toNat = n.val + 1 → s.parityOf t = s.targets[n].parity) ∧
  ∀ (c : ChainIx) (i : SlotIx) (r : Record) (s : State), s.head c = some (i, r) →
    (s.slots[i].codeMatches = false → tryStart c s = storeFault (damageSlot i s)) ∧
    (s.slots[i].codeMatches = true → s.fenced (chainPort c) r.kind r.target = true →
      tryStart c s =
        { mark .halt (chainPort c)
            { s with slots := modAt s.slots i fun sl =>
              { gen := sl.gen, record := some { r with state := .halted, haltReason := .known .fenced }
                codeMatches := true } } with
          grant := none }) ∧
    (s.slots[i].codeMatches = true → s.fenced (chainPort c) r.kind r.target = false →
      ∃ e : Exchange,
        tryStart c s =
          { s with
            slots := modAt s.slots i fun sl =>
              { gen := sl.gen, record := some { r with state := .active }, codeMatches := true }
            exchange := some e } ∧
        e.origin = .record i s.slots[i].gen ∧ e.stage = .preamble ∧ e.count = 0 ∧ e.replyStart = false ∧ e.held = none ∧
        e.span.register = r.span.register ∧
        match r.kind with
        | .read => e.phase = .single ∧ e.op = .read ∧ e.target = r.target ∧ e.span = r.span ∧ e.parity = false ∧ e.send = []
        | .write => e.phase = .single ∧ e.op = .write ∧ e.target = r.target ∧ e.span = r.span ∧
            e.parity = s.parityOf r.target ∧ e.send = r.data
        | .modify => e.phase = .modifyRead ∧ e.op = .read ∧ e.target = r.target ∧ e.span.count = 1 ∧ e.parity = false ∧
            e.send = []
        | .broadcast => e.phase = .broadcast ∧ e.op = .write ∧ e.target = 0 ∧ e.span = r.span ∧ e.parity = false ∧
            e.send = r.data)

/-! ### The field line (03) -/

/-- The request frame of an exchange, byte by byte, each most significant bit first (R45, section 12.4). The course of an exchange
up to its reply: PREAMBLE_END begins that frame, delimiter first; its last bit opens the window, or the guard of a BROADCAST; the
reply start bit and the delimiter are taken in RECEIVING; and a finding of R50 is held in DISCARDING (R48 to R51, R53). Nothing else
of the part changes but the line monitor's run, which the model sets to 0 (logs 13, 14), and a line event that does not fit the
stage, a count byte that fails no check, and a delimiter's event after the reply start change nothing (logs 3, 18). That the frame
of a record which an upset left out of the ranges of R1 carries all of its stored words is the model's choice (log 29), and that a
count byte implies the reply's start where REPLY_START was not sent is its reading (log 18). The ends of an exchange without an
accepted reply (R49, R50, R53): the window's expiry ends it NOREPLY, a released bit period ends a held or a broken reply, and the
guard's end ends a BROADCAST DONE. The bit periods that lead to these events in LINE OK: the 8th released one in a row ends the
preamble, the request frame's last bit ends its sending, the 24th released one ends the window and the first driven one is the
reply's start, the 24th of either kind ends the guard, a released one ends a reply, and the 64th driven one in a row outside the
part's own frame, the window and an accepted reply is a LINE FAULT (R48, R49, R50, R53, R60). -/
def Obligations.ExchangeCourse : Prop :=
  (∀ b : Byte, bitsOf b = [7, 6, 5, 4, 3, 2, 1, 0].map b.getLsbD) ∧
  (∀ e : Exchange,
     let front : List Byte :=
       (e.target ++ (match e.op with
         | .read => (0 : BitVec 1)
         | .write => 1) ++ BitVec.ofBool e.parity : Byte) ::
       wordBytes (e.span.countM1 ++ e.span.register) ++ e.send.flatMap wordBytes
     e.frameBytes = front ++ wordBytes (crc16 front)) ∧
  (∀ (e : Exchange) (s : State), s.exchange = some e →
     let go : Exchange → State := fun e' => { s with exchange := some e', run := 0 }
     (e.stage = .preamble →
       exec .preambleEnd s = .next (go { e with
         stage := .sending, count := 0
         tx := [false, true, true, true, true, true, true, false] ++ e.frameBytes.flatMap bitsOf })) ∧
     (e.stage = .sending →
       exec .requestFrameSent s = .next (go { e with
         stage := if e.phase = .broadcast then .guard else .window, count := 0, tx := [] })) ∧
     (e.stage = .window →
       exec .replyStartBit s = .next (go { e with stage := .receiving, count := 0, rx := [false] })) ∧
     (e.stage = .receiving → e.replyStart = false →
       exec .replyStart s = .next (go { e with
         replyStart := true, rx := [false, true, true, true, true, true, true, false] }) ∧
       exec (.heldOutcome .badDelimiter) s =
         .next (go { e with stage := .discarding, held := some .corrupt, replyStart := false, rx := [] })) ∧
     (∀ b : Byte, e.stage = .receiving → b.extractLsb' 5 3 ≠ 0 →
       exec (.heldOutcome (.countByte b)) s =
         .next (go { e with stage := .discarding, held := some .corrupt, replyStart := true, rx := [] })) ∧
     (∀ b : Byte, e.stage = .receiving → b.extractLsb' 5 3 = 0 → e.expected < replyCount b →
       exec (.heldOutcome (.countByte b)) s =
         .next (go { e with stage := .discarding, held := some .overlong, replyStart := true, rx := [] })) ∧
     (∀ b : Byte, e.stage = .receiving → b.extractLsb' 5 3 = 0 → replyCount b ≤ e.expected →
       exec (.heldOutcome (.countByte b)) s = .next s) ∧
     (e.stage = .receiving → e.replyStart = true →
       exec .replyStart s = .next s ∧ exec (.heldOutcome .badDelimiter) s = .next s) ∧
     (e.stage ≠ .preamble → exec .preambleEnd s = .next s) ∧
     (e.stage ≠ .sending → exec .requestFrameSent s = .next s) ∧
     (e.stage ≠ .window → exec .replyStartBit s = .next s) ∧
     (e.stage ≠ .receiving → exec .replyStart s = .next s ∧ ∀ h : HeldCause, exec (.heldOutcome h) s = .next s)) ∧
  (∀ (e : Exchange) (s : State), s.exchange = some e →
    (e.stage = .window → exec .replyWindowExpiry s = .next (endExchange e .noreply [] s)) ∧
    (e.stage = .guard → exec .broadcastGuardEnd s = .next (endExchange e .done [] s)) ∧
    (∀ o : Outcome, e.stage = .discarding → e.held = some o →
      exec .discardingEnd s = .next (endExchange e o [] { s with run := 0 })) ∧
    (e.stage = .receiving → exec .discardingEnd s = .next (endExchange e .corrupt [] { s with run := 0 }))) ∧
  ∀ (e : Exchange) (s : State), s.exchange = some e → s.line = .ok →
    let counted : State := { s with exchange := some { e with count := e.count + 1 } }
    (e.stage = .preamble →
      (e.count < 7 → fieldBit .released s = .next { counted with run := 0 }) ∧
      (e.count = 7 → fieldBit .released s = exec .preambleEnd { s with run := 0 }) ∧
      ∀ b : Bool, s.run < 63 →
        fieldBit (.driven b) s = .next { s with exchange := some { e with count := 0 }, run := s.run + 1 }) ∧
    (∀ d : Drive, e.stage = .sending →
      (∀ (b next : Bool) (rest : List Bool), e.tx = b :: next :: rest →
        fieldBit d s = .next { s with exchange := some { e with tx := next :: rest }, run := 0 }) ∧
      ∀ b : Bool, e.tx = [b] → fieldBit d s = exec .requestFrameSent s) ∧
    (e.stage = .window →
      (e.count < 23 → fieldBit .released s = .next { counted with run := 0 }) ∧
      (e.count = 23 → fieldBit .released s = exec .replyWindowExpiry { s with run := 0 }) ∧
      fieldBit (.driven false) s = exec .replyStartBit s ∧
      fieldBit (.driven true) s =
        exec (.heldOutcome .badDelimiter)
          { s with exchange := some { e with stage := .receiving, count := 0, rx := [false] }, run := 0 }) ∧
    (e.stage = .receiving ∨ e.stage = .discarding → fieldBit .released s = exec .discardingEnd s) ∧
    (∀ b : Bool, e.stage = .discarding → s.run < 63 → fieldBit (.driven b) s = .next { s with run := s.run + 1 }) ∧
    (e.stage = .guard →
      (e.count < 23 → fieldBit .released s = .next { counted with run := 0 }) ∧
      (e.count = 23 → fieldBit .released s = exec .broadcastGuardEnd { s with run := 0 }) ∧
      ∀ b : Bool, s.run < 63 →
        (e.count < 23 → fieldBit (.driven b) s = .next { counted with run := s.run + 1 }) ∧
        (e.count = 23 → fieldBit (.driven b) s = exec .broadcastGuardEnd { s with run := s.run + 1 })) ∧
    ∀ b : Bool, e.stage = .preamble ∨ e.stage = .discarding ∨ e.stage = .guard → s.run = 63 →
      fieldBit (.driven b) s = exec .lineFault s

/-- The classification of an accepted reply, row by row in the order of R52; and the event that accepts one, which ends the exchange
with that outcome and keeps the words received for DONE and SHORT alone. That the event is taken whatever bit periods were counted,
and implies the reply's start where REPLY_START was not sent, is the model's reading (logs 14, 18). The driven bit periods of a
reply (R50 to R52): a bit that differs from the delimiter is HELD_OUTCOME, the delimiter's last bit REPLY_START, the count byte's
last bit HELD_OUTCOME if its high bits are not 0 or its count is above the one expected (that its high bits are checked there and
not as they arrive is the model's choice, log 31), the last bit of the CRC-16 REPLY_FRAME_RECEIVED of the frame that the bits spell,
and any other bit is taken, the run at 0 (log 13). The CRC-16 of a byte more: its bits enter most significant first, by the
polynomial x^16+x^12+x^5+1, from the initial value 0xFFFF (R46). -/
def Obligations.ReplyClassified : Prop :=
  (crc16 [] = 0xFFFF ∧ ∀ (bytes : List Byte) (b : Byte),
     crc16 (bytes ++ [b]) =
       [7, 6, 5, 4, 3, 2, 1, 0].foldl
         (fun (crc : Word) n => if crc.msb = b.getLsbD n then crc <<< 1 else (crc <<< 1) ^^^ 0x1021) (crc16 bytes)) ∧
  (∀ (e : Exchange) (b : Byte),
     replyCount b = b.toNat % 32 ∧
     (e.op = .read → e.expected = e.span.countM1.toNat + 1) ∧ (e.op = .write → e.expected = 0)) ∧
  (∀ (e : Exchange) (b : Bool) (s : State), s.exchange = some e → s.line = .ok → e.stage = .receiving →
     let bits := e.rx ++ [b]
     let delim : List Bool := [false, true, true, true, true, true, true, false]
     let taken : State := { s with exchange := some { e with rx := bits }, run := 0 }
     (∀ rest : List Bool, delim = e.rx ++ (!b) :: rest → fieldBit (.driven b) s = exec (.heldOutcome .badDelimiter) s) ∧
     (∀ rest : List Bool, delim = bits ++ rest → rest ≠ [] → fieldBit (.driven b) s = .next taken) ∧
     (bits = delim → fieldBit (.driven b) s = exec .replyStart taken) ∧
     (∀ more : List Bool, bits = delim ++ more → more ≠ [] → more.length < 16 → fieldBit (.driven b) s = .next taken) ∧
     (∀ header count : Byte, bits = delim ++ bitsOf header ++ bitsOf count →
       let fails := count.extractLsb' 5 3 ≠ 0 ∨ e.expected < replyCount count
       (fails → fieldBit (.driven b) s = exec (.heldOutcome (.countByte count)) taken) ∧
       (¬ fails → fieldBit (.driven b) s = .next taken)) ∧
     (∀ (header count : Byte) (more : List Bool), bits = delim ++ bitsOf header ++ bitsOf count ++ more → more ≠ [] →
       more.length ≠ 16 * replyCount count + 16 → fieldBit (.driven b) s = .next taken) ∧
     ∀ f : ReplyFrame, f.words.length = replyCount f.count →
       bits = delim ++ (f.header :: f.count :: f.words.flatMap wordBytes ++ wordBytes f.crc).flatMap bitsOf →
       fieldBit (.driven b) s = exec (.replyFrameReceived f) taken) ∧
  (∀ (e : Exchange) (f : ReplyFrame),
    f.words.length ≤ e.expected → (e.phase = .modifyRead → e.op = .read) →
    let good := crc16 (f.header :: f.count :: f.words.flatMap wordBytes) = f.crc
    let ours := f.header.extractLsb' 2 6 = e.target
    let st := (f.header.extractLsb' 0 2).toNat
    (¬ good → classify e f = .corrupt) ∧
    (good → ¬ ours → classify e f = .corrupt) ∧
    (good → ours → st = 3 → classify e f = .corrupt) ∧
    (good → ours → st = 1 → classify e f = .wait) ∧
    (good → ours → st = 2 → classify e f = .refused) ∧
    (good → ours → st = 0 → e.phase = .modifyRead → f.words = [] → classify e f = .corrupt) ∧
    (good → ours → st = 0 → e.op = .read → ¬ (e.phase = .modifyRead ∧ f.words = []) →
      f.words.length = e.span.count → classify e f = .done) ∧
    (good → ours → st = 0 → e.op = .read → e.phase ≠ .modifyRead → f.words.length < e.span.count →
      classify e f = .short) ∧
    (good → ours → st = 0 → e.op = .write → classify e f = .done)) ∧
  ∀ (e : Exchange) (f : ReplyFrame) (s : State),
    s.exchange = some e → e.stage = .receiving → f.count.extractLsb' 5 3 = 0 → f.words.length = replyCount f.count →
    f.words.length ≤ e.expected →
    let o := classify e f
    exec (.replyFrameReceived f) s =
      .next (endExchange { e with replyStart := true } o (if o = .done ∨ o = .short then f.words else [])
        { s with run := 0 })

/-- The Target Table at an exchange's end (R53, R58): LINE and a BROADCAST leave it; otherwise the target's entry takes presence,
run, parity and sweep as R58 gives, every other entry stays, and TARGET is marked everywhere when the run reaches 4 from 3. -/
def Obligations.TargetTableUpdate : Prop :=
  ∀ (e : Exchange) (o : Outcome) (s : State),
    (o = .line ∨ e.target = 0 → updateTarget e o s = s) ∧
    ∀ t : Fin 63, e.target.toNat = t.val + 1 → o ≠ .line →
      let was := s.targets[t]
      let silent : Prop := e.replyStart = false ∧ o = .noreply ∧ was.run = 3
      let now : Target :=
        { parity := if e.op = .write ∧ o = .done then !was.parity else was.parity
          presence := if e.replyStart then .present else if o = .noreply ∧ was.run = 3 then .silent else was.presence
          run := if e.replyStart then 0 else if o = .noreply then min 15 (was.run + 1) else was.run
          lastSweep := some s.sweep }
      let u : State := { s with targets := modAt s.targets t fun _ => now }
      (silent → updateTarget e o s = markAll .target u) ∧ (¬ silent → updateTarget e o s = u)

/-- The line monitor (R60, R61, R162): in LINE OK a LINE_FAULT enters LINE FAULT, raises FAULT at every attached port, and ends an
exchange in progress, in any stage, with LINE; in LINE FAULT a LINE_OK returns to LINE OK and the bus is offered (R91). That a
LINE_FAULT is taken in every stage, SENDING, WINDOW and RECEIVING included, is the model's reading (log 17). In the other line state
each changes nothing (log 3); the counts that stand after them are the model's reading (logs 13, 14). The bit periods that the line
monitor counts while no exchange is in progress (R60, R61): a released one sets the run to 0, the 64th driven one in a row is a LINE
FAULT; in LINE FAULT a driven one sets the released count to 0, and the 256th released one in a row returns to LINE OK. -/
def Obligations.LineMonitor : Prop :=
  (∀ s : State,
     let hit : State := raiseAll .fault { s with line := .fault, run := 64, releasedCount := 0 }
     (s.line = .ok → s.exchange = none → exec .lineFault s = .next hit) ∧
     (∀ e : Exchange, s.line = .ok → s.exchange = some e → exec .lineFault s = .next (endExchange e .line [] hit)) ∧
     (s.line = .fault → exec .lineFault s = .next s) ∧
     (s.line = .fault → exec .lineOk s = .next (offerBus { s with line := .ok, run := 0, releasedCount := 0 })) ∧
     (s.line = .ok → exec .lineOk s = .next s)) ∧
  ∀ s : State, s.exchange = none →
    (s.line = .ok → fieldBit .released s = .next { s with run := 0 }) ∧
    (∀ b : Bool, s.line = .ok → s.run < 63 → fieldBit (.driven b) s = .next { s with run := s.run + 1 }) ∧
    (∀ b : Bool, s.line = .ok → s.run = 63 → fieldBit (.driven b) s = exec .lineFault s) ∧
    (s.line = .fault → s.releasedCount < 255 →
      fieldBit .released s = .next { s with releasedCount := s.releasedCount + 1, run := 0 }) ∧
    (s.line = .fault → s.releasedCount = 255 → fieldBit .released s = exec .lineOk s) ∧
    ∀ b : Bool, s.line = .fault → fieldBit (.driven b) s = .next { s with releasedCount := 0, run := min 64 (s.run + 1) }

/-! ### The end of a try (04) -/

/-- The end of a try without a cancel pending (R27, R64 to R67): attempts, budget left, last outcome, and what becomes of the record
and the grant, for every outcome but DONE and SHORT and for the stops at the mid-point. That a slot upset during its exchange has
its fields taken as stored is the model's choice (log 30). -/
def Obligations.TryEndsThatKeepTheHead : Prop :=
  ∀ (i : SlotIx) (r : Record) (res : Result) (s : State), r.cancelPending = false →
    let counted := min 255 (r.attempts + 1)
    let queued : Record → State := fun r' =>
      { s with
        slots := modAt s.slots i fun sl => { gen := sl.gen, record := some { r' with state := .queued }, codeMatches := true }
        grant := none }
    let halted : Record → HaltReason → State := fun r' why =>
      { mark .halt (chainPort r.home)
          { s with slots := modAt s.slots i fun sl =>
            { gen := sl.gen, record := some { r' with state := .halted, haltReason := .known why }, codeMatches := true } } with
        grant := none }
    applyTryEnd i r (.outcome .wait) res s = queued { r with attempts := counted, lastOutcome := .known .wait } ∧
    applyTryEnd i r (.outcome .line) res s = queued { r with lastOutcome := .known .line } ∧
    applyTryEnd i r (.outcome .refused) res s =
      halted { r with attempts := counted, lastOutcome := .known .refused } .refused ∧
    applyTryEnd i r (.outcome .overlong) res s =
      halted { r with attempts := counted, lastOutcome := .known .overlong } .overlong ∧
    applyTryEnd i r .midFence res s = halted { r with attempts := counted, lastOutcome := .known .done } .fenced ∧
    applyTryEnd i r .midFault res s = queued r ∧
    ∀ o : Outcome, o = .noreply ∨ o = .corrupt →
      let r' : Record := { r with attempts := counted, lastOutcome := .known o }
      (r.budget = 0 → applyTryEnd i r (.outcome o) res s = queued r') ∧
      (r.budget ≠ 0 → 1 < r.budgetLeft →
        applyTryEnd i r (.outcome o) res s = queued { r' with budgetLeft := r.budgetLeft - 1 }) ∧
      (r.budget ≠ 0 → r.budgetLeft = 1 →
        applyTryEnd i r (.outcome o) res s = halted { r' with budgetLeft := 0 } .exhausted)

/-- The end of a try with a cancel pending (R16): DONE and SHORT complete the record with its cancel-late marker set; every other
end, and the mid-point of a MODIFY, retires it CANCELLED with budget left kept, and ends the grant. A completion without a cancel
pending (R16, R19, R27, R30): a record that ends DONE with NOTE clear is freed, any other is retired COMPLETED with its result; a
SHORT head with STOP-SHORT skips the rest of its group, which is the records behind it up to and including the first with GROUP-END,
or to the tail when none has it; then the grant goes on or ends. That a slot upset during its exchange, and an upset record behind
it, have their flags taken as stored, whatever kind is stored, is the model's choice (log 30). -/
def Obligations.CompletionsAndCancels : Prop :=
  (∀ (r : Record) (o : Outcome) (s : State),
     let skips := o = .short ∧ r.stopShort = true ∧ r.groupEnd = false
     (skips →
       skipGroup r o s = (s.groupRest s.chains[r.home].list).foldl (fun u j => retireSlot j .skipped u) s) ∧
     (¬ skips → skipGroup r o s = s)) ∧
  (∀ (i : SlotIx) (r : Record) (res : Result) (s : State), r.cancelPending = true →
     let counted := min 255 (r.attempts + 1)
     (∀ o : Outcome, o = .done ∨ o = .short →
       let r' : Record := { r with attempts := counted, lastOutcome := .known o, result := res, cancelLate := true }
       applyTryEnd i r (.outcome o) res s = burstContinue r.home (skipGroup r' o (retire i r' .completed s))) ∧
     (∀ o : Outcome, o = .wait ∨ o = .refused ∨ o = .noreply ∨ o = .corrupt ∨ o = .overlong →
       applyTryEnd i r (.outcome o) res s =
         { retire i { r with attempts := counted, lastOutcome := .known o } .cancelled s with grant := none }) ∧
     applyTryEnd i r (.outcome .line) res s =
       { retire i { r with lastOutcome := .known .line } .cancelled s with grant := none } ∧
     applyTryEnd i r .midCancel res s =
       { retire i { r with attempts := counted, lastOutcome := .known .done } .cancelled s with grant := none }) ∧
  (∀ (before : List SlotIx) (s : State),
     (∀ j ∈ before, ∀ r : Record, s.record j = some r → r.groupEnd = false) →
     s.groupRest before = before ∧
     ∀ (i : SlotIx) (r : Record) (behind : List SlotIx), s.record i = some r → r.groupEnd = true →
       s.groupRest (before ++ i :: behind) = before ++ [i]) ∧
  ∀ (i : SlotIx) (r : Record) (res : Result) (s : State), r.cancelPending = false → r.cancelLate = false →
    let done : Outcome → Record := fun o =>
      { r with attempts := min 255 (r.attempts + 1), lastOutcome := .known o, result := res }
    (r.note = false →
      applyTryEnd i r (.outcome .done) res s = burstContinue r.home (freeSlot i (unlist i s))) ∧
    (r.note = true →
      applyTryEnd i r (.outcome .done) res s = burstContinue r.home (retire i (done .done) .completed s)) ∧
    (r.stopShort = false ∨ r.groupEnd = true →
      applyTryEnd i r (.outcome .short) res s = burstContinue r.home (retire i (done .short) .completed s)) ∧
    (r.stopShort = true → r.groupEnd = false →
      let t := retire i (done .short) .completed s
      applyTryEnd i r (.outcome .short) res s =
        burstContinue r.home
          ((t.groupRest t.chains[r.home].list).foldl (fun u j => retireSlot j .skipped u) t))

/-- After a completion the next head's try starts within the grant under the six tests of R32, and otherwise the grant ends. A
completion of a chain that no longer holds the grant starts nothing (R31, R33). -/
def Obligations.BurstWithinGrant : Prop :=
  (∀ (c : ChainIx) (s : State), (∀ g : Grant, s.grant = some g → g.chain ≠ c) → burstContinue c s = s) ∧
  ∀ (c : ChainIx) (n : Nat) (s : State), s.grant = some { chain := c, completed := n } →
    let go := n + 1 < s.chains[c].burst ∧ s.chainState c = .ready ∧ s.chains[c].hold = false ∧ s.expired = false ∧
      s.sched = .running ∧ s.line = .ok
    (go → burstContinue c s = tryStart c { s with grant := some { chain := c, completed := n + 1 } }) ∧
    (¬ go → burstContinue c s = { s with grant := none })

/-- The end event of an exchange (R54): the engine becomes idle, the Target Table is updated, and the outcome goes to the block that
started the exchange; then, in the same event, a DRAINING scheduler whose engine is idle becomes STOPPED (R156), and a turnover that
an expired timer waits for is taken (R82) or, if there is none, the bus is offered. The marks set in the event stand apart from the
earlier ones until then (R136, log 7). What is handed on as the result: the words of a READ that ended DONE or SHORT, the pair of a
MODIFY whose write phase ended DONE, and nothing otherwise (R54, R67). The outcome of a chain record's exchange reaches only a slot
that is ACTIVE under the handle of its origin; an ORPHANED one is freed (its code as log 5 has it), and any other slot is left as it
is (R18, R54, R159). The mid-point of a MODIFY (R55, R56): the tests in their order, and the write phase they let start, which goes
to the target and register of the read phase and carries the old value ANDed with the and-mask and then ORed with the or-value. That
the fence is asked about the kind and target, and the masks are those, that the record holds at this event is the model's choice
(log 27), and so is that an outcome goes to an upset slot as to any other (log 30). -/
def Obligations.OutcomeHandedOn : Prop :=
  (∀ (e : Exchange) (o : Outcome) (words : List Word) (s : State),
     let clear : State := { s with exchange := none, reports := tab fun p => { s.reports[p] with marks := 0 } }
     let handed : State :=
       match e.origin with
       | .record i g => recordOutcome e i g o words (updateTarget e o clear)
       | .poll i edit => pollOutcome i edit o words (updateTarget e o clear)
     let ended : State :=
       { handed with sched := if handed.sched = .draining ∧ handed.exchange = none then .stopped else handed.sched }
     (ended.expired = true → ended.exchange = none →
       endExchange e o words s =
         offerBus
           (lowerWindow
             ((List.finRange 8).foldl lowerLease
               ((List.finRange 16).foldl checkDeadline (pollTurnover (pendMarks s.marks (advanceSweep ended))))))) ∧
     (ended.expired = false ∨ ended.exchange ≠ none →
       endExchange e o words s =
         offerBus
           { ended with
             reports := tab fun p => { ended.reports[p] with marks := ended.reports[p].marks ||| s.reports[p].marks } })) ∧
  (∀ (e : Exchange) (o : Outcome) (words : List Word),
     let read := e.phase = .single ∧ e.op = .read ∧ (o = .done ∨ o = .short)
     let written := e.phase = .modifyWrite ∧ o = .done
     (read → resultOf e o words = .words words) ∧
     (∀ old new : Word, written → e.oldValue = some old → e.send = [new] → resultOf e o words = .pair old new) ∧
     (¬ read → ¬ written → resultOf e o words = .absent)) ∧
  (∀ (e : Exchange) (i : SlotIx) (r : Record) (old andMask orValue : Word) (s : State), r.data = [andMask, orValue] →
     let fence := s.fenced (chainPort r.home) r.kind r.target
     (r.cancelPending = true → midPoint e i r old s = applyTryEnd i r .midCancel .absent s) ∧
     (r.cancelPending = false → s.sched = .faulted → midPoint e i r old s = applyTryEnd i r .midFault .absent s) ∧
     (r.cancelPending = false → s.sched ≠ .faulted → fence = true →
       midPoint e i r old s = applyTryEnd i r .midFence .absent s) ∧
     (r.cancelPending = false → s.sched ≠ .faulted → fence = false →
       ∃ w : Exchange,
         midPoint e i r old s = { s with exchange := some w } ∧
         w.origin = e.origin ∧ w.phase = .modifyWrite ∧ w.op = .write ∧ w.target = e.target ∧
         w.span.register = e.span.register ∧ w.span.count = 1 ∧ w.parity = s.parityOf e.target ∧
         w.send = [(old &&& andMask) ||| orValue] ∧ w.oldValue = some old ∧ w.stage = .preamble ∧ w.count = 0 ∧
         w.replyStart = false ∧ w.held = none)) ∧
  ∀ (e : Exchange) (i : SlotIx) (g : Byte) (o : Outcome) (words : List Word) (s : State),
    let t := recordOutcome e i g o words s
    (s.record i = none → t = s) ∧
    ∀ r : Record, s.record i = some r →
      (s.slots[i].gen ≠ g → t = s) ∧
      (s.slots[i].gen = g → r.state = .queued ∨ r.state = .halted ∨ r.state = .done ∨ r.state = .damaged → t = s) ∧
      (s.slots[i].gen = g → r.state = .orphaned →
        t = { s with slots := modAt s.slots i fun sl => { gen := sl.gen + 1, record := none, codeMatches := true } }) ∧
      (s.slots[i].gen = g → r.state = .active →
        (∀ w : Word, e.phase = .modifyRead → o = .done → words = [w] → t = midPoint e i r w s) ∧
        (e.phase ≠ .modifyRead ∨ o ≠ .done → t = applyTryEnd i r (.outcome o) (resultOf e o words) s))

/-! ### Frames, codes and invariants -/

/-- Every command that is a completed frame is read back from the frame that spells it: port, code, sequence and body, at every
value the frame admits (R165, R166, R176). The frame that spells a request is its length byte, code, sequence, body and CRC-8, and a
request fits a frame when its body has at most 60 bytes (section 12.1); that a longer one cannot be sent is the model's reading (log
21). -/
def Obligations.FrameRoundTrip : Prop :=
  (∀ (c : Instr) (p : Port) (code seq : Byte) (body : List Byte),
     requestOf code p seq body = some c ∨ (requestOf code p seq body = none ∧ c = .unknown p code seq body) →
     let front : List Byte := byte (body.length + 3) :: code :: seq :: body
     frameOf c = some (p, front ++ [crc8 front]) ∧ (c.wellFormed = true ↔ body.length ≤ 60)) ∧
  (∀ (p : Port) (bytes : List Byte),
     frameOf (.frame p bytes) = some (p, bytes) ∧
     ((Instr.frame p bytes).wellFormed = true ↔ frameComplete bytes = true ∧ frameGood bytes = false)) ∧
  ∀ (i : Instr) (p : Port) (bytes : List Byte),
    i.wellFormed = true → frameOf i = some (p, bytes) → frameCommand p bytes = some i

/-- The last byte clocked into a RECEIVING port carries out the command its frame is, and every byte before it is kept (R164, R165).
A byte clocked at a port in ANSWERING, with SEL held, shifts a byte of its response out: an idle 0x00 while some are left, then the
frame's bytes in order, the last of which puts the port in SPENT; in SPENT and RESET HELD 0x00 is driven and the byte is ignored;
with SEL released nothing is taken or driven (R164, R167, R172). That the response's last byte stands on SDO in SPENT until the next
byte is clocked is the model's choice (log 20). -/
def Obligations.LastByteTakesTheRequest : Prop :=
  (∀ (p : Port) (b : Byte) (s : State), s.ports[p].sel = true → s.ports[p].txn = .answering →
    let go : PortIf → Host.Outcome State Fault Refusal := fun q => .next { s with ports := modAt s.ports p fun _ => q }
    (∀ (n : Nat) (bytes : List Byte), s.ports[p].answer = some { idle := n + 1, bytes := bytes } → bytes ≠ [] →
      clockByte p b s = go { s.ports[p] with answer := some { idle := n, bytes := bytes }, sdo := some 0 }) ∧
    (∀ (x : Byte) (rest : List Byte), s.ports[p].answer = some { idle := 0, bytes := x :: rest } → rest ≠ [] →
      clockByte p b s = go { s.ports[p] with answer := some { idle := 0, bytes := rest }, sdo := some x }) ∧
    ∀ x : Byte, s.ports[p].answer = some { idle := 0, bytes := [x] } →
      clockByte p b s = go { s.ports[p] with txn := .spent, answer := none, sdo := some x }) ∧
  (∀ (p : Port) (b : Byte) (s : State),
    (s.ports[p].sel = true → s.ports[p].txn = .spent ∨ s.ports[p].txn = .resetHeld →
      clockByte p b s = .next { s with ports := modAt s.ports p fun q => { q with sdo := some 0 } }) ∧
    (s.ports[p].sel = false → clockByte p b s = .next s)) ∧
  ∀ (p : Port) (b : Byte) (s : State), s.takes p → s.ports[p].sel = true →
    let bytes := s.ports[p].rx ++ [b]
    let t : State := { s with ports := modAt s.ports p fun q => { q with rx := bytes, sdo := some 0 } }
    (frameComplete bytes = false → clockByte p b s = .next t) ∧
    ∀ c : Instr, frameCommand p bytes = some c → clockByte p b s = exec c t

/-- The invariants hold at reset. -/
def Obligations.ResetIsSound : Prop :=
  State.reset.ListsSound ∧ State.reset.PlanSound ∧ State.reset.ClaimsSound ∧ State.reset.SessionsSound ∧
  State.reset.ProposalSound ∧ State.reset.GatesSound ∧ State.reset.BusUsed ∧ State.reset.InRange

/-- Every step keeps the reservations apart: no two of different ports match a common target (R118), and a held lease has time left
(R116). -/
def Obligations.ReservationsStayApart : Prop :=
  ∀ s t : State, s.ClaimsSound → step s = .next t → t.ClaimsSound

/-- Every step keeps the Poll Plan's identities apart and the pending list free of repeats and of entries not ACTIVE (R97, R99). -/
def Obligations.PollPlanStaysSound : Prop :=
  ∀ s t : State, s.PlanSound → step s = .next t → t.PlanSound

/-- Every step keeps the lists of chains and report queues as R2, R21, R47 and R129 have them. -/
def Obligations.ListsStaySound : Prop :=
  ∀ s t : State, s.ListsSound → step s = .next t → t.ListsSound

/-- Every step keeps a DETACHED port without slots but ORPHANED ones, notes, causes, reservations, poll entries and places in a
proposal (R17, R114, R126, R141, R151). -/
def Obligations.DetachedPortsHoldNothing : Prop :=
  ∀ s t : State, s.ListsSound → s.SessionsSound → step s = .next t → t.SessionsSound

/-- Every step keeps the pending proposal as R143 has it. -/
def Obligations.PendingProposalStaysSound : Prop :=
  ∀ s t : State, s.ProposalSound → step s = .next t → t.ProposalSound

/-- Every step keeps every counted field in its range: records, quotas, chains, the line monitor, the exchange, the Target Table,
the sweep and poll settings, a grant's completions, the Poll Plan, leases, the pending proposal and the idle bytes of a response
(R1, R24, R32, R45, R48, R49, R53, R57, R60, R61, R79, R97, R102, R116, R143, R144, R167). The word count of a stored result is not
among them (log 12); that an upset keeps the counted fields (log 5), and that the line monitor's run stops at 64, in LINE FAULT as
well (log 13), is the model's choice. -/
def Obligations.FieldsStayInRange : Prop :=
  ∀ s t : State, s.InRange → step s = .next t → t.InRange

/-- Every step keeps the gates of the bus: no exchange in LINE FAULT, an expired timer or a draining scheduler only while an
exchange is in progress, a grant only of a BUSY chain under RUNNING, and a poll phase with an idle engine only while polls are left
(R33, R61, R82, R88, R156). -/
def Obligations.GatesStaySound : Prop :=
  ∀ s t : State, s.ListsSound → s.PlanSound → s.GatesSound → step s = .next t → t.GatesSound

/-- Every step leaves the bus in use when it can be: when every condition of the offer holds after it, the phase is CHAIN and no
chain is eligible (R86, R88, R90). -/
def Obligations.FreeBusIsOffered : Prop :=
  ∀ s t : State, s.ListsSound → s.PlanSound → s.GatesSound → s.BusUsed → step s = .next t → t.BusUsed

/-- No WRITE exchange, MODIFY write phase included, and no BROADCAST starts for a record that is fenced when it starts (R48): an
exchange with words to write that is in PREAMBLE after a step, and was not before it, is of an ACTIVE record that is not fenced. For
a MODIFY whose slot was upset during its read phase, that the fence is asked about the kind and target that the slot then holds is
the model's choice (log 27). -/
def Obligations.NoFencedWriteStarts : Prop :=
  ∀ (s t : State) (e : Exchange) (i : SlotIx) (g : Byte),
    s.ListsSound → step s = .next t → t.exchange = some e → e.origin = .record i g → e.op = .write →
    e.stage = .preamble → (∀ x : Exchange, s.exchange = some x → x.stage ≠ .preamble) →
    ∃ r : Record, t.record i = some r ∧ r.state = .active ∧ r.owner = some (chainPort r.home) ∧
      t.fenced (chainPort r.home) r.kind r.target = false
end

