-- ==== Sys2Proof/Laws/State.lean ====
section
/-! SUPPORT. Each field after each plain update of State: the field the update writes, and the fields it leaves. All hold by
unfolding the update. -/

namespace Sys2Proof.Machine

variable (s : State)

section
variable (c : Cause)

@[simp] theorem raiseAll_ports : (raiseAll c s).ports = s.ports := rfl
@[simp] theorem raiseAll_slots : (raiseAll c s).slots = s.slots := rfl
@[simp] theorem raiseAll_quotas : (raiseAll c s).quotas = s.quotas := rfl
@[simp] theorem raiseAll_chains : (raiseAll c s).chains = s.chains := rfl
@[simp] theorem raiseAll_grant : (raiseAll c s).grant = s.grant := rfl
@[simp] theorem raiseAll_exchange : (raiseAll c s).exchange = s.exchange := rfl
@[simp] theorem raiseAll_rate : (raiseAll c s).rate = s.rate := rfl
@[simp] theorem raiseAll_line : (raiseAll c s).line = s.line := rfl
@[simp] theorem raiseAll_run : (raiseAll c s).run = s.run := rfl
@[simp] theorem raiseAll_releasedCount : (raiseAll c s).releasedCount = s.releasedCount := rfl
@[simp] theorem raiseAll_targets : (raiseAll c s).targets = s.targets := rfl
@[simp] theorem raiseAll_timerLength : (raiseAll c s).timerLength = s.timerLength := rfl
@[simp] theorem raiseAll_expired : (raiseAll c s).expired = s.expired := rfl
@[simp] theorem raiseAll_sweep : (raiseAll c s).sweep = s.sweep := rfl
@[simp] theorem raiseAll_sweepLength : (raiseAll c s).sweepLength = s.sweepLength := rfl
@[simp] theorem raiseAll_nextSweepLength : (raiseAll c s).nextSweepLength = s.nextSweepLength := rfl
@[simp] theorem raiseAll_pollWindow : (raiseAll c s).pollWindow = s.pollWindow := rfl
@[simp] theorem raiseAll_nextPollWindow : (raiseAll c s).nextPollWindow = s.nextPollWindow := rfl
@[simp] theorem raiseAll_pollsRun : (raiseAll c s).pollsRun = s.pollsRun := rfl
@[simp] theorem raiseAll_phase : (raiseAll c s).phase = s.phase := rfl
@[simp] theorem raiseAll_overruns : (raiseAll c s).overruns = s.overruns := rfl
@[simp] theorem raiseAll_sched : (raiseAll c s).sched = s.sched := rfl
@[simp] theorem raiseAll_pointer : (raiseAll c s).pointer = s.pointer := rfl
@[simp] theorem raiseAll_polls : (raiseAll c s).polls = s.polls := rfl
@[simp] theorem raiseAll_pollPending : (raiseAll c s).pollPending = s.pollPending := rfl
@[simp] theorem raiseAll_resvs : (raiseAll c s).resvs = s.resvs := rfl
@[simp] theorem raiseAll_proposal : (raiseAll c s).proposal = s.proposal := rfl
@[simp] theorem raiseAll_lastNumber : (raiseAll c s).lastNumber = s.lastNumber := rfl
@[simp] theorem raiseAll_decision : (raiseAll c s).decision = s.decision := rfl
@[simp] theorem raiseAll_fresh : (raiseAll c s).fresh = s.fresh := rfl
@[simp] theorem raiseAll_pending : (raiseAll c s).pending = s.pending := rfl
@[simp] theorem raiseAll_wires : (raiseAll c s).wires = s.wires := rfl
end

section
variable (d : Deferred)

@[simp] theorem markAll_ports : (markAll d s).ports = s.ports := rfl
@[simp] theorem markAll_slots : (markAll d s).slots = s.slots := rfl
@[simp] theorem markAll_quotas : (markAll d s).quotas = s.quotas := rfl
@[simp] theorem markAll_chains : (markAll d s).chains = s.chains := rfl
@[simp] theorem markAll_grant : (markAll d s).grant = s.grant := rfl
@[simp] theorem markAll_exchange : (markAll d s).exchange = s.exchange := rfl
@[simp] theorem markAll_rate : (markAll d s).rate = s.rate := rfl
@[simp] theorem markAll_line : (markAll d s).line = s.line := rfl
@[simp] theorem markAll_run : (markAll d s).run = s.run := rfl
@[simp] theorem markAll_releasedCount : (markAll d s).releasedCount = s.releasedCount := rfl
@[simp] theorem markAll_targets : (markAll d s).targets = s.targets := rfl
@[simp] theorem markAll_timerLength : (markAll d s).timerLength = s.timerLength := rfl
@[simp] theorem markAll_expired : (markAll d s).expired = s.expired := rfl
@[simp] theorem markAll_sweep : (markAll d s).sweep = s.sweep := rfl
@[simp] theorem markAll_sweepLength : (markAll d s).sweepLength = s.sweepLength := rfl
@[simp] theorem markAll_nextSweepLength : (markAll d s).nextSweepLength = s.nextSweepLength := rfl
@[simp] theorem markAll_pollWindow : (markAll d s).pollWindow = s.pollWindow := rfl
@[simp] theorem markAll_nextPollWindow : (markAll d s).nextPollWindow = s.nextPollWindow := rfl
@[simp] theorem markAll_pollsRun : (markAll d s).pollsRun = s.pollsRun := rfl
@[simp] theorem markAll_phase : (markAll d s).phase = s.phase := rfl
@[simp] theorem markAll_overruns : (markAll d s).overruns = s.overruns := rfl
@[simp] theorem markAll_sched : (markAll d s).sched = s.sched := rfl
@[simp] theorem markAll_pointer : (markAll d s).pointer = s.pointer := rfl
@[simp] theorem markAll_polls : (markAll d s).polls = s.polls := rfl
@[simp] theorem markAll_pollPending : (markAll d s).pollPending = s.pollPending := rfl
@[simp] theorem markAll_resvs : (markAll d s).resvs = s.resvs := rfl
@[simp] theorem markAll_proposal : (markAll d s).proposal = s.proposal := rfl
@[simp] theorem markAll_lastNumber : (markAll d s).lastNumber = s.lastNumber := rfl
@[simp] theorem markAll_decision : (markAll d s).decision = s.decision := rfl
@[simp] theorem markAll_fresh : (markAll d s).fresh = s.fresh := rfl
@[simp] theorem markAll_pending : (markAll d s).pending = s.pending := rfl
@[simp] theorem markAll_wires : (markAll d s).wires = s.wires := rfl
end

section

@[simp] theorem clearMarks_ports : (clearMarks s).ports = s.ports := rfl
@[simp] theorem clearMarks_slots : (clearMarks s).slots = s.slots := rfl
@[simp] theorem clearMarks_quotas : (clearMarks s).quotas = s.quotas := rfl
@[simp] theorem clearMarks_chains : (clearMarks s).chains = s.chains := rfl
@[simp] theorem clearMarks_grant : (clearMarks s).grant = s.grant := rfl
@[simp] theorem clearMarks_exchange : (clearMarks s).exchange = s.exchange := rfl
@[simp] theorem clearMarks_rate : (clearMarks s).rate = s.rate := rfl
@[simp] theorem clearMarks_line : (clearMarks s).line = s.line := rfl
@[simp] theorem clearMarks_run : (clearMarks s).run = s.run := rfl
@[simp] theorem clearMarks_releasedCount : (clearMarks s).releasedCount = s.releasedCount := rfl
@[simp] theorem clearMarks_targets : (clearMarks s).targets = s.targets := rfl
@[simp] theorem clearMarks_timerLength : (clearMarks s).timerLength = s.timerLength := rfl
@[simp] theorem clearMarks_expired : (clearMarks s).expired = s.expired := rfl
@[simp] theorem clearMarks_sweep : (clearMarks s).sweep = s.sweep := rfl
@[simp] theorem clearMarks_sweepLength : (clearMarks s).sweepLength = s.sweepLength := rfl
@[simp] theorem clearMarks_nextSweepLength : (clearMarks s).nextSweepLength = s.nextSweepLength := rfl
@[simp] theorem clearMarks_pollWindow : (clearMarks s).pollWindow = s.pollWindow := rfl
@[simp] theorem clearMarks_nextPollWindow : (clearMarks s).nextPollWindow = s.nextPollWindow := rfl
@[simp] theorem clearMarks_pollsRun : (clearMarks s).pollsRun = s.pollsRun := rfl
@[simp] theorem clearMarks_phase : (clearMarks s).phase = s.phase := rfl
@[simp] theorem clearMarks_overruns : (clearMarks s).overruns = s.overruns := rfl
@[simp] theorem clearMarks_sched : (clearMarks s).sched = s.sched := rfl
@[simp] theorem clearMarks_pointer : (clearMarks s).pointer = s.pointer := rfl
@[simp] theorem clearMarks_polls : (clearMarks s).polls = s.polls := rfl
@[simp] theorem clearMarks_pollPending : (clearMarks s).pollPending = s.pollPending := rfl
@[simp] theorem clearMarks_resvs : (clearMarks s).resvs = s.resvs := rfl
@[simp] theorem clearMarks_proposal : (clearMarks s).proposal = s.proposal := rfl
@[simp] theorem clearMarks_lastNumber : (clearMarks s).lastNumber = s.lastNumber := rfl
@[simp] theorem clearMarks_decision : (clearMarks s).decision = s.decision := rfl
@[simp] theorem clearMarks_fresh : (clearMarks s).fresh = s.fresh := rfl
@[simp] theorem clearMarks_pending : (clearMarks s).pending = s.pending := rfl
@[simp] theorem clearMarks_wires : (clearMarks s).wires = s.wires := rfl
end

section
variable (e : Marks)

@[simp] theorem restoreMarks_ports : (restoreMarks e s).ports = s.ports := rfl
@[simp] theorem restoreMarks_slots : (restoreMarks e s).slots = s.slots := rfl
@[simp] theorem restoreMarks_quotas : (restoreMarks e s).quotas = s.quotas := rfl
@[simp] theorem restoreMarks_chains : (restoreMarks e s).chains = s.chains := rfl
@[simp] theorem restoreMarks_grant : (restoreMarks e s).grant = s.grant := rfl
@[simp] theorem restoreMarks_exchange : (restoreMarks e s).exchange = s.exchange := rfl
@[simp] theorem restoreMarks_rate : (restoreMarks e s).rate = s.rate := rfl
@[simp] theorem restoreMarks_line : (restoreMarks e s).line = s.line := rfl
@[simp] theorem restoreMarks_run : (restoreMarks e s).run = s.run := rfl
@[simp] theorem restoreMarks_releasedCount : (restoreMarks e s).releasedCount = s.releasedCount := rfl
@[simp] theorem restoreMarks_targets : (restoreMarks e s).targets = s.targets := rfl
@[simp] theorem restoreMarks_timerLength : (restoreMarks e s).timerLength = s.timerLength := rfl
@[simp] theorem restoreMarks_expired : (restoreMarks e s).expired = s.expired := rfl
@[simp] theorem restoreMarks_sweep : (restoreMarks e s).sweep = s.sweep := rfl
@[simp] theorem restoreMarks_sweepLength : (restoreMarks e s).sweepLength = s.sweepLength := rfl
@[simp] theorem restoreMarks_nextSweepLength : (restoreMarks e s).nextSweepLength = s.nextSweepLength := rfl
@[simp] theorem restoreMarks_pollWindow : (restoreMarks e s).pollWindow = s.pollWindow := rfl
@[simp] theorem restoreMarks_nextPollWindow : (restoreMarks e s).nextPollWindow = s.nextPollWindow := rfl
@[simp] theorem restoreMarks_pollsRun : (restoreMarks e s).pollsRun = s.pollsRun := rfl
@[simp] theorem restoreMarks_phase : (restoreMarks e s).phase = s.phase := rfl
@[simp] theorem restoreMarks_overruns : (restoreMarks e s).overruns = s.overruns := rfl
@[simp] theorem restoreMarks_sched : (restoreMarks e s).sched = s.sched := rfl
@[simp] theorem restoreMarks_pointer : (restoreMarks e s).pointer = s.pointer := rfl
@[simp] theorem restoreMarks_polls : (restoreMarks e s).polls = s.polls := rfl
@[simp] theorem restoreMarks_pollPending : (restoreMarks e s).pollPending = s.pollPending := rfl
@[simp] theorem restoreMarks_resvs : (restoreMarks e s).resvs = s.resvs := rfl
@[simp] theorem restoreMarks_proposal : (restoreMarks e s).proposal = s.proposal := rfl
@[simp] theorem restoreMarks_lastNumber : (restoreMarks e s).lastNumber = s.lastNumber := rfl
@[simp] theorem restoreMarks_decision : (restoreMarks e s).decision = s.decision := rfl
@[simp] theorem restoreMarks_fresh : (restoreMarks e s).fresh = s.fresh := rfl
@[simp] theorem restoreMarks_pending : (restoreMarks e s).pending = s.pending := rfl
@[simp] theorem restoreMarks_wires : (restoreMarks e s).wires = s.wires := rfl
end

section
variable (e : Marks)

@[simp] theorem pendMarks_ports : (pendMarks e s).ports = s.ports := rfl
@[simp] theorem pendMarks_slots : (pendMarks e s).slots = s.slots := rfl
@[simp] theorem pendMarks_quotas : (pendMarks e s).quotas = s.quotas := rfl
@[simp] theorem pendMarks_chains : (pendMarks e s).chains = s.chains := rfl
@[simp] theorem pendMarks_grant : (pendMarks e s).grant = s.grant := rfl
@[simp] theorem pendMarks_exchange : (pendMarks e s).exchange = s.exchange := rfl
@[simp] theorem pendMarks_rate : (pendMarks e s).rate = s.rate := rfl
@[simp] theorem pendMarks_line : (pendMarks e s).line = s.line := rfl
@[simp] theorem pendMarks_run : (pendMarks e s).run = s.run := rfl
@[simp] theorem pendMarks_releasedCount : (pendMarks e s).releasedCount = s.releasedCount := rfl
@[simp] theorem pendMarks_targets : (pendMarks e s).targets = s.targets := rfl
@[simp] theorem pendMarks_timerLength : (pendMarks e s).timerLength = s.timerLength := rfl
@[simp] theorem pendMarks_expired : (pendMarks e s).expired = s.expired := rfl
@[simp] theorem pendMarks_sweep : (pendMarks e s).sweep = s.sweep := rfl
@[simp] theorem pendMarks_sweepLength : (pendMarks e s).sweepLength = s.sweepLength := rfl
@[simp] theorem pendMarks_nextSweepLength : (pendMarks e s).nextSweepLength = s.nextSweepLength := rfl
@[simp] theorem pendMarks_pollWindow : (pendMarks e s).pollWindow = s.pollWindow := rfl
@[simp] theorem pendMarks_nextPollWindow : (pendMarks e s).nextPollWindow = s.nextPollWindow := rfl
@[simp] theorem pendMarks_pollsRun : (pendMarks e s).pollsRun = s.pollsRun := rfl
@[simp] theorem pendMarks_phase : (pendMarks e s).phase = s.phase := rfl
@[simp] theorem pendMarks_overruns : (pendMarks e s).overruns = s.overruns := rfl
@[simp] theorem pendMarks_sched : (pendMarks e s).sched = s.sched := rfl
@[simp] theorem pendMarks_pointer : (pendMarks e s).pointer = s.pointer := rfl
@[simp] theorem pendMarks_polls : (pendMarks e s).polls = s.polls := rfl
@[simp] theorem pendMarks_pollPending : (pendMarks e s).pollPending = s.pollPending := rfl
@[simp] theorem pendMarks_resvs : (pendMarks e s).resvs = s.resvs := rfl
@[simp] theorem pendMarks_proposal : (pendMarks e s).proposal = s.proposal := rfl
@[simp] theorem pendMarks_lastNumber : (pendMarks e s).lastNumber = s.lastNumber := rfl
@[simp] theorem pendMarks_decision : (pendMarks e s).decision = s.decision := rfl
@[simp] theorem pendMarks_fresh : (pendMarks e s).fresh = s.fresh := rfl
@[simp] theorem pendMarks_pending : (pendMarks e s).pending = s.pending := rfl
@[simp] theorem pendMarks_wires : (pendMarks e s).wires = s.wires := rfl
end

section
variable (i : SlotIx) (r : Record)

@[simp] theorem putRecord_ports : (putRecord i r s).ports = s.ports := rfl
@[simp] theorem putRecord_slots :
    (putRecord i r s).slots =
      modAt s.slots i fun sl => { sl with record := some r, codeMatches := true } := rfl
@[simp] theorem putRecord_quotas : (putRecord i r s).quotas = s.quotas := rfl
@[simp] theorem putRecord_chains : (putRecord i r s).chains = s.chains := rfl
@[simp] theorem putRecord_grant : (putRecord i r s).grant = s.grant := rfl
@[simp] theorem putRecord_exchange : (putRecord i r s).exchange = s.exchange := rfl
@[simp] theorem putRecord_rate : (putRecord i r s).rate = s.rate := rfl
@[simp] theorem putRecord_line : (putRecord i r s).line = s.line := rfl
@[simp] theorem putRecord_run : (putRecord i r s).run = s.run := rfl
@[simp] theorem putRecord_releasedCount : (putRecord i r s).releasedCount = s.releasedCount := rfl
@[simp] theorem putRecord_targets : (putRecord i r s).targets = s.targets := rfl
@[simp] theorem putRecord_timerLength : (putRecord i r s).timerLength = s.timerLength := rfl
@[simp] theorem putRecord_expired : (putRecord i r s).expired = s.expired := rfl
@[simp] theorem putRecord_sweep : (putRecord i r s).sweep = s.sweep := rfl
@[simp] theorem putRecord_sweepLength : (putRecord i r s).sweepLength = s.sweepLength := rfl
@[simp] theorem putRecord_nextSweepLength : (putRecord i r s).nextSweepLength = s.nextSweepLength := rfl
@[simp] theorem putRecord_pollWindow : (putRecord i r s).pollWindow = s.pollWindow := rfl
@[simp] theorem putRecord_nextPollWindow : (putRecord i r s).nextPollWindow = s.nextPollWindow := rfl
@[simp] theorem putRecord_pollsRun : (putRecord i r s).pollsRun = s.pollsRun := rfl
@[simp] theorem putRecord_phase : (putRecord i r s).phase = s.phase := rfl
@[simp] theorem putRecord_overruns : (putRecord i r s).overruns = s.overruns := rfl
@[simp] theorem putRecord_sched : (putRecord i r s).sched = s.sched := rfl
@[simp] theorem putRecord_pointer : (putRecord i r s).pointer = s.pointer := rfl
@[simp] theorem putRecord_polls : (putRecord i r s).polls = s.polls := rfl
@[simp] theorem putRecord_pollPending : (putRecord i r s).pollPending = s.pollPending := rfl
@[simp] theorem putRecord_resvs : (putRecord i r s).resvs = s.resvs := rfl
@[simp] theorem putRecord_reports : (putRecord i r s).reports = s.reports := rfl
@[simp] theorem putRecord_proposal : (putRecord i r s).proposal = s.proposal := rfl
@[simp] theorem putRecord_lastNumber : (putRecord i r s).lastNumber = s.lastNumber := rfl
@[simp] theorem putRecord_decision : (putRecord i r s).decision = s.decision := rfl
@[simp] theorem putRecord_fresh : (putRecord i r s).fresh = s.fresh := rfl
@[simp] theorem putRecord_pending : (putRecord i r s).pending = s.pending := rfl
@[simp] theorem putRecord_wires : (putRecord i r s).wires = s.wires := rfl
end

section
variable (i : SlotIx)

@[simp] theorem freeSlot_ports : (freeSlot i s).ports = s.ports := rfl
@[simp] theorem freeSlot_slots :
    (freeSlot i s).slots =
      modAt s.slots i fun sl => { gen := sl.gen + 1, record := none, codeMatches := true } := rfl
@[simp] theorem freeSlot_quotas : (freeSlot i s).quotas = s.quotas := rfl
@[simp] theorem freeSlot_chains : (freeSlot i s).chains = s.chains := rfl
@[simp] theorem freeSlot_grant : (freeSlot i s).grant = s.grant := rfl
@[simp] theorem freeSlot_exchange : (freeSlot i s).exchange = s.exchange := rfl
@[simp] theorem freeSlot_rate : (freeSlot i s).rate = s.rate := rfl
@[simp] theorem freeSlot_line : (freeSlot i s).line = s.line := rfl
@[simp] theorem freeSlot_run : (freeSlot i s).run = s.run := rfl
@[simp] theorem freeSlot_releasedCount : (freeSlot i s).releasedCount = s.releasedCount := rfl
@[simp] theorem freeSlot_targets : (freeSlot i s).targets = s.targets := rfl
@[simp] theorem freeSlot_timerLength : (freeSlot i s).timerLength = s.timerLength := rfl
@[simp] theorem freeSlot_expired : (freeSlot i s).expired = s.expired := rfl
@[simp] theorem freeSlot_sweep : (freeSlot i s).sweep = s.sweep := rfl
@[simp] theorem freeSlot_sweepLength : (freeSlot i s).sweepLength = s.sweepLength := rfl
@[simp] theorem freeSlot_nextSweepLength : (freeSlot i s).nextSweepLength = s.nextSweepLength := rfl
@[simp] theorem freeSlot_pollWindow : (freeSlot i s).pollWindow = s.pollWindow := rfl
@[simp] theorem freeSlot_nextPollWindow : (freeSlot i s).nextPollWindow = s.nextPollWindow := rfl
@[simp] theorem freeSlot_pollsRun : (freeSlot i s).pollsRun = s.pollsRun := rfl
@[simp] theorem freeSlot_phase : (freeSlot i s).phase = s.phase := rfl
@[simp] theorem freeSlot_overruns : (freeSlot i s).overruns = s.overruns := rfl
@[simp] theorem freeSlot_sched : (freeSlot i s).sched = s.sched := rfl
@[simp] theorem freeSlot_pointer : (freeSlot i s).pointer = s.pointer := rfl
@[simp] theorem freeSlot_polls : (freeSlot i s).polls = s.polls := rfl
@[simp] theorem freeSlot_pollPending : (freeSlot i s).pollPending = s.pollPending := rfl
@[simp] theorem freeSlot_resvs : (freeSlot i s).resvs = s.resvs := rfl
@[simp] theorem freeSlot_reports : (freeSlot i s).reports = s.reports := rfl
@[simp] theorem freeSlot_proposal : (freeSlot i s).proposal = s.proposal := rfl
@[simp] theorem freeSlot_lastNumber : (freeSlot i s).lastNumber = s.lastNumber := rfl
@[simp] theorem freeSlot_decision : (freeSlot i s).decision = s.decision := rfl
@[simp] theorem freeSlot_fresh : (freeSlot i s).fresh = s.fresh := rfl
@[simp] theorem freeSlot_pending : (freeSlot i s).pending = s.pending := rfl
@[simp] theorem freeSlot_wires : (freeSlot i s).wires = s.wires := rfl
end

section
variable (i : SlotIx)

@[simp] theorem unlist_ports : (unlist i s).ports = s.ports := by simp only [unlist]
@[simp] theorem unlist_slots : (unlist i s).slots = s.slots := by simp only [unlist]
@[simp] theorem unlist_quotas : (unlist i s).quotas = s.quotas := by simp only [unlist]
@[simp] theorem unlist_chains : (unlist i s).chains = tab fun c => s.chains[c].remove i := by simp only [unlist]
@[simp] theorem unlist_grant : (unlist i s).grant = s.grant := by simp only [unlist]
@[simp] theorem unlist_exchange : (unlist i s).exchange = s.exchange := by simp only [unlist]
@[simp] theorem unlist_rate : (unlist i s).rate = s.rate := by simp only [unlist]
@[simp] theorem unlist_line : (unlist i s).line = s.line := by simp only [unlist]
@[simp] theorem unlist_run : (unlist i s).run = s.run := by simp only [unlist]
@[simp] theorem unlist_releasedCount : (unlist i s).releasedCount = s.releasedCount := by simp only [unlist]
@[simp] theorem unlist_targets : (unlist i s).targets = s.targets := by simp only [unlist]
@[simp] theorem unlist_timerLength : (unlist i s).timerLength = s.timerLength := by simp only [unlist]
@[simp] theorem unlist_expired : (unlist i s).expired = s.expired := by simp only [unlist]
@[simp] theorem unlist_sweep : (unlist i s).sweep = s.sweep := by simp only [unlist]
@[simp] theorem unlist_sweepLength : (unlist i s).sweepLength = s.sweepLength := by simp only [unlist]
@[simp] theorem unlist_nextSweepLength : (unlist i s).nextSweepLength = s.nextSweepLength := by simp only [unlist]
@[simp] theorem unlist_pollWindow : (unlist i s).pollWindow = s.pollWindow := by simp only [unlist]
@[simp] theorem unlist_nextPollWindow : (unlist i s).nextPollWindow = s.nextPollWindow := by simp only [unlist]
@[simp] theorem unlist_pollsRun : (unlist i s).pollsRun = s.pollsRun := by simp only [unlist]
@[simp] theorem unlist_phase : (unlist i s).phase = s.phase := by simp only [unlist]
@[simp] theorem unlist_overruns : (unlist i s).overruns = s.overruns := by simp only [unlist]
@[simp] theorem unlist_sched : (unlist i s).sched = s.sched := by simp only [unlist]
@[simp] theorem unlist_pointer : (unlist i s).pointer = s.pointer := by simp only [unlist]
@[simp] theorem unlist_polls : (unlist i s).polls = s.polls := by simp only [unlist]
@[simp] theorem unlist_pollPending : (unlist i s).pollPending = s.pollPending := by simp only [unlist]
@[simp] theorem unlist_resvs : (unlist i s).resvs = s.resvs := by simp only [unlist]
@[simp] theorem unlist_reports :
    (unlist i s).reports =
      tab fun p => { s.reports[p] with queue := s.reports[p].queue.filter (· != i) } := by simp only [unlist]
@[simp] theorem unlist_proposal : (unlist i s).proposal = s.proposal := by simp only [unlist]
@[simp] theorem unlist_lastNumber : (unlist i s).lastNumber = s.lastNumber := by simp only [unlist]
@[simp] theorem unlist_decision : (unlist i s).decision = s.decision := by simp only [unlist]
@[simp] theorem unlist_fresh : (unlist i s).fresh = s.fresh := by simp only [unlist]
@[simp] theorem unlist_pending : (unlist i s).pending = s.pending := by simp only [unlist]
@[simp] theorem unlist_wires : (unlist i s).wires = s.wires := by simp only [unlist]
end

section
variable (c : ChainIx) (i : SlotIx)

@[simp] theorem appendChain_ports : (appendChain c i s).ports = s.ports := rfl
@[simp] theorem appendChain_slots : (appendChain c i s).slots = s.slots := rfl
@[simp] theorem appendChain_quotas : (appendChain c i s).quotas = s.quotas := rfl
@[simp] theorem appendChain_chains :
    (appendChain c i s).chains =
      modAt s.chains c fun ch => { ch with list := ch.list ++ [i] } := rfl
@[simp] theorem appendChain_grant : (appendChain c i s).grant = s.grant := rfl
@[simp] theorem appendChain_exchange : (appendChain c i s).exchange = s.exchange := rfl
@[simp] theorem appendChain_rate : (appendChain c i s).rate = s.rate := rfl
@[simp] theorem appendChain_line : (appendChain c i s).line = s.line := rfl
@[simp] theorem appendChain_run : (appendChain c i s).run = s.run := rfl
@[simp] theorem appendChain_releasedCount : (appendChain c i s).releasedCount = s.releasedCount := rfl
@[simp] theorem appendChain_targets : (appendChain c i s).targets = s.targets := rfl
@[simp] theorem appendChain_timerLength : (appendChain c i s).timerLength = s.timerLength := rfl
@[simp] theorem appendChain_expired : (appendChain c i s).expired = s.expired := rfl
@[simp] theorem appendChain_sweep : (appendChain c i s).sweep = s.sweep := rfl
@[simp] theorem appendChain_sweepLength : (appendChain c i s).sweepLength = s.sweepLength := rfl
@[simp] theorem appendChain_nextSweepLength : (appendChain c i s).nextSweepLength = s.nextSweepLength := rfl
@[simp] theorem appendChain_pollWindow : (appendChain c i s).pollWindow = s.pollWindow := rfl
@[simp] theorem appendChain_nextPollWindow : (appendChain c i s).nextPollWindow = s.nextPollWindow := rfl
@[simp] theorem appendChain_pollsRun : (appendChain c i s).pollsRun = s.pollsRun := rfl
@[simp] theorem appendChain_phase : (appendChain c i s).phase = s.phase := rfl
@[simp] theorem appendChain_overruns : (appendChain c i s).overruns = s.overruns := rfl
@[simp] theorem appendChain_sched : (appendChain c i s).sched = s.sched := rfl
@[simp] theorem appendChain_pointer : (appendChain c i s).pointer = s.pointer := rfl
@[simp] theorem appendChain_polls : (appendChain c i s).polls = s.polls := rfl
@[simp] theorem appendChain_pollPending : (appendChain c i s).pollPending = s.pollPending := rfl
@[simp] theorem appendChain_resvs : (appendChain c i s).resvs = s.resvs := rfl
@[simp] theorem appendChain_reports : (appendChain c i s).reports = s.reports := rfl
@[simp] theorem appendChain_proposal : (appendChain c i s).proposal = s.proposal := rfl
@[simp] theorem appendChain_lastNumber : (appendChain c i s).lastNumber = s.lastNumber := rfl
@[simp] theorem appendChain_decision : (appendChain c i s).decision = s.decision := rfl
@[simp] theorem appendChain_fresh : (appendChain c i s).fresh = s.fresh := rfl
@[simp] theorem appendChain_pending : (appendChain c i s).pending = s.pending := rfl
@[simp] theorem appendChain_wires : (appendChain c i s).wires = s.wires := rfl
end

section

@[simp] theorem endGrant_ports : (endGrant s).ports = s.ports := rfl
@[simp] theorem endGrant_slots : (endGrant s).slots = s.slots := rfl
@[simp] theorem endGrant_quotas : (endGrant s).quotas = s.quotas := rfl
@[simp] theorem endGrant_chains : (endGrant s).chains = s.chains := rfl
@[simp] theorem endGrant_grant : (endGrant s).grant = none := rfl
@[simp] theorem endGrant_exchange : (endGrant s).exchange = s.exchange := rfl
@[simp] theorem endGrant_rate : (endGrant s).rate = s.rate := rfl
@[simp] theorem endGrant_line : (endGrant s).line = s.line := rfl
@[simp] theorem endGrant_run : (endGrant s).run = s.run := rfl
@[simp] theorem endGrant_releasedCount : (endGrant s).releasedCount = s.releasedCount := rfl
@[simp] theorem endGrant_targets : (endGrant s).targets = s.targets := rfl
@[simp] theorem endGrant_timerLength : (endGrant s).timerLength = s.timerLength := rfl
@[simp] theorem endGrant_expired : (endGrant s).expired = s.expired := rfl
@[simp] theorem endGrant_sweep : (endGrant s).sweep = s.sweep := rfl
@[simp] theorem endGrant_sweepLength : (endGrant s).sweepLength = s.sweepLength := rfl
@[simp] theorem endGrant_nextSweepLength : (endGrant s).nextSweepLength = s.nextSweepLength := rfl
@[simp] theorem endGrant_pollWindow : (endGrant s).pollWindow = s.pollWindow := rfl
@[simp] theorem endGrant_nextPollWindow : (endGrant s).nextPollWindow = s.nextPollWindow := rfl
@[simp] theorem endGrant_pollsRun : (endGrant s).pollsRun = s.pollsRun := rfl
@[simp] theorem endGrant_phase : (endGrant s).phase = s.phase := rfl
@[simp] theorem endGrant_overruns : (endGrant s).overruns = s.overruns := rfl
@[simp] theorem endGrant_sched : (endGrant s).sched = s.sched := rfl
@[simp] theorem endGrant_pointer : (endGrant s).pointer = s.pointer := rfl
@[simp] theorem endGrant_polls : (endGrant s).polls = s.polls := rfl
@[simp] theorem endGrant_pollPending : (endGrant s).pollPending = s.pollPending := rfl
@[simp] theorem endGrant_resvs : (endGrant s).resvs = s.resvs := rfl
@[simp] theorem endGrant_reports : (endGrant s).reports = s.reports := rfl
@[simp] theorem endGrant_proposal : (endGrant s).proposal = s.proposal := rfl
@[simp] theorem endGrant_lastNumber : (endGrant s).lastNumber = s.lastNumber := rfl
@[simp] theorem endGrant_decision : (endGrant s).decision = s.decision := rfl
@[simp] theorem endGrant_fresh : (endGrant s).fresh = s.fresh := rfl
@[simp] theorem endGrant_pending : (endGrant s).pending = s.pending := rfl
@[simp] theorem endGrant_wires : (endGrant s).wires = s.wires := rfl
end

section

@[simp] theorem storeFault_ports : (storeFault s).ports = s.ports := rfl
@[simp] theorem storeFault_slots : (storeFault s).slots = s.slots := rfl
@[simp] theorem storeFault_quotas : (storeFault s).quotas = s.quotas := rfl
@[simp] theorem storeFault_chains : (storeFault s).chains = s.chains := rfl
@[simp] theorem storeFault_grant : (storeFault s).grant = none := rfl
@[simp] theorem storeFault_exchange : (storeFault s).exchange = s.exchange := rfl
@[simp] theorem storeFault_rate : (storeFault s).rate = s.rate := rfl
@[simp] theorem storeFault_line : (storeFault s).line = s.line := rfl
@[simp] theorem storeFault_run : (storeFault s).run = s.run := rfl
@[simp] theorem storeFault_releasedCount : (storeFault s).releasedCount = s.releasedCount := rfl
@[simp] theorem storeFault_targets : (storeFault s).targets = s.targets := rfl
@[simp] theorem storeFault_timerLength : (storeFault s).timerLength = s.timerLength := rfl
@[simp] theorem storeFault_expired : (storeFault s).expired = s.expired := rfl
@[simp] theorem storeFault_sweep : (storeFault s).sweep = s.sweep := rfl
@[simp] theorem storeFault_sweepLength : (storeFault s).sweepLength = s.sweepLength := rfl
@[simp] theorem storeFault_nextSweepLength : (storeFault s).nextSweepLength = s.nextSweepLength := rfl
@[simp] theorem storeFault_pollWindow : (storeFault s).pollWindow = s.pollWindow := rfl
@[simp] theorem storeFault_nextPollWindow : (storeFault s).nextPollWindow = s.nextPollWindow := rfl
@[simp] theorem storeFault_pollsRun : (storeFault s).pollsRun = s.pollsRun := rfl
@[simp] theorem storeFault_phase : (storeFault s).phase = s.phase := rfl
@[simp] theorem storeFault_overruns : (storeFault s).overruns = s.overruns := rfl
@[simp] theorem storeFault_sched : (storeFault s).sched = .faulted := rfl
@[simp] theorem storeFault_pointer : (storeFault s).pointer = s.pointer := rfl
@[simp] theorem storeFault_polls : (storeFault s).polls = s.polls := rfl
@[simp] theorem storeFault_pollPending : (storeFault s).pollPending = s.pollPending := rfl
@[simp] theorem storeFault_resvs : (storeFault s).resvs = s.resvs := rfl
@[simp] theorem storeFault_proposal : (storeFault s).proposal = s.proposal := rfl
@[simp] theorem storeFault_lastNumber : (storeFault s).lastNumber = s.lastNumber := rfl
@[simp] theorem storeFault_decision : (storeFault s).decision = s.decision := rfl
@[simp] theorem storeFault_fresh : (storeFault s).fresh = s.fresh := rfl
@[simp] theorem storeFault_pending : (storeFault s).pending = s.pending := rfl
@[simp] theorem storeFault_wires : (storeFault s).wires = s.wires := rfl
end

section
variable (p : Port) (seq : Byte) (c : ResultCode) (body : List Byte)

@[simp] theorem respond_slots : (respond p seq c body s).slots = s.slots := rfl
@[simp] theorem respond_quotas : (respond p seq c body s).quotas = s.quotas := rfl
@[simp] theorem respond_chains : (respond p seq c body s).chains = s.chains := rfl
@[simp] theorem respond_grant : (respond p seq c body s).grant = s.grant := rfl
@[simp] theorem respond_exchange : (respond p seq c body s).exchange = s.exchange := rfl
@[simp] theorem respond_rate : (respond p seq c body s).rate = s.rate := rfl
@[simp] theorem respond_line : (respond p seq c body s).line = s.line := rfl
@[simp] theorem respond_run : (respond p seq c body s).run = s.run := rfl
@[simp] theorem respond_releasedCount : (respond p seq c body s).releasedCount = s.releasedCount := rfl
@[simp] theorem respond_targets : (respond p seq c body s).targets = s.targets := rfl
@[simp] theorem respond_timerLength : (respond p seq c body s).timerLength = s.timerLength := rfl
@[simp] theorem respond_expired : (respond p seq c body s).expired = s.expired := rfl
@[simp] theorem respond_sweep : (respond p seq c body s).sweep = s.sweep := rfl
@[simp] theorem respond_sweepLength : (respond p seq c body s).sweepLength = s.sweepLength := rfl
@[simp] theorem respond_nextSweepLength : (respond p seq c body s).nextSweepLength = s.nextSweepLength := rfl
@[simp] theorem respond_pollWindow : (respond p seq c body s).pollWindow = s.pollWindow := rfl
@[simp] theorem respond_nextPollWindow : (respond p seq c body s).nextPollWindow = s.nextPollWindow := rfl
@[simp] theorem respond_pollsRun : (respond p seq c body s).pollsRun = s.pollsRun := rfl
@[simp] theorem respond_phase : (respond p seq c body s).phase = s.phase := rfl
@[simp] theorem respond_overruns : (respond p seq c body s).overruns = s.overruns := rfl
@[simp] theorem respond_sched : (respond p seq c body s).sched = s.sched := rfl
@[simp] theorem respond_pointer : (respond p seq c body s).pointer = s.pointer := rfl
@[simp] theorem respond_polls : (respond p seq c body s).polls = s.polls := rfl
@[simp] theorem respond_pollPending : (respond p seq c body s).pollPending = s.pollPending := rfl
@[simp] theorem respond_resvs : (respond p seq c body s).resvs = s.resvs := rfl
@[simp] theorem respond_reports : (respond p seq c body s).reports = s.reports := rfl
@[simp] theorem respond_proposal : (respond p seq c body s).proposal = s.proposal := rfl
@[simp] theorem respond_lastNumber : (respond p seq c body s).lastNumber = s.lastNumber := rfl
@[simp] theorem respond_decision : (respond p seq c body s).decision = s.decision := rfl
@[simp] theorem respond_fresh : (respond p seq c body s).fresh = s.fresh + 1 := rfl
@[simp] theorem respond_pending : (respond p seq c body s).pending = s.pending := rfl
@[simp] theorem respond_wires : (respond p seq c body s).wires = s.wires := rfl
end

section
variable (e : Exchange)

@[simp] theorem startExchange_ports : (startExchange e s).ports = s.ports := rfl
@[simp] theorem startExchange_slots : (startExchange e s).slots = s.slots := rfl
@[simp] theorem startExchange_quotas : (startExchange e s).quotas = s.quotas := rfl
@[simp] theorem startExchange_chains : (startExchange e s).chains = s.chains := rfl
@[simp] theorem startExchange_grant : (startExchange e s).grant = s.grant := rfl
@[simp] theorem startExchange_exchange : (startExchange e s).exchange = some e := rfl
@[simp] theorem startExchange_rate : (startExchange e s).rate = s.rate := rfl
@[simp] theorem startExchange_line : (startExchange e s).line = s.line := rfl
@[simp] theorem startExchange_run : (startExchange e s).run = s.run := rfl
@[simp] theorem startExchange_releasedCount : (startExchange e s).releasedCount = s.releasedCount := rfl
@[simp] theorem startExchange_targets : (startExchange e s).targets = s.targets := rfl
@[simp] theorem startExchange_timerLength : (startExchange e s).timerLength = s.timerLength := rfl
@[simp] theorem startExchange_expired : (startExchange e s).expired = s.expired := rfl
@[simp] theorem startExchange_sweep : (startExchange e s).sweep = s.sweep := rfl
@[simp] theorem startExchange_sweepLength : (startExchange e s).sweepLength = s.sweepLength := rfl
@[simp] theorem startExchange_nextSweepLength : (startExchange e s).nextSweepLength = s.nextSweepLength := rfl
@[simp] theorem startExchange_pollWindow : (startExchange e s).pollWindow = s.pollWindow := rfl
@[simp] theorem startExchange_nextPollWindow : (startExchange e s).nextPollWindow = s.nextPollWindow := rfl
@[simp] theorem startExchange_pollsRun : (startExchange e s).pollsRun = s.pollsRun := rfl
@[simp] theorem startExchange_phase : (startExchange e s).phase = s.phase := rfl
@[simp] theorem startExchange_overruns : (startExchange e s).overruns = s.overruns := rfl
@[simp] theorem startExchange_sched : (startExchange e s).sched = s.sched := rfl
@[simp] theorem startExchange_pointer : (startExchange e s).pointer = s.pointer := rfl
@[simp] theorem startExchange_polls : (startExchange e s).polls = s.polls := rfl
@[simp] theorem startExchange_pollPending : (startExchange e s).pollPending = s.pollPending := rfl
@[simp] theorem startExchange_resvs : (startExchange e s).resvs = s.resvs := rfl
@[simp] theorem startExchange_reports : (startExchange e s).reports = s.reports := rfl
@[simp] theorem startExchange_proposal : (startExchange e s).proposal = s.proposal := rfl
@[simp] theorem startExchange_lastNumber : (startExchange e s).lastNumber = s.lastNumber := rfl
@[simp] theorem startExchange_decision : (startExchange e s).decision = s.decision := rfl
@[simp] theorem startExchange_fresh : (startExchange e s).fresh = s.fresh := rfl
@[simp] theorem startExchange_pending : (startExchange e s).pending = s.pending := rfl
@[simp] theorem startExchange_wires : (startExchange e s).wires = s.wires := rfl
end

section
variable (f : Exchange → Exchange)

@[simp] theorem modExchange_ports : (modExchange f s).ports = s.ports := rfl
@[simp] theorem modExchange_slots : (modExchange f s).slots = s.slots := rfl
@[simp] theorem modExchange_quotas : (modExchange f s).quotas = s.quotas := rfl
@[simp] theorem modExchange_chains : (modExchange f s).chains = s.chains := rfl
@[simp] theorem modExchange_grant : (modExchange f s).grant = s.grant := rfl
@[simp] theorem modExchange_exchange : (modExchange f s).exchange = s.exchange.map f := rfl
@[simp] theorem modExchange_rate : (modExchange f s).rate = s.rate := rfl
@[simp] theorem modExchange_line : (modExchange f s).line = s.line := rfl
@[simp] theorem modExchange_run : (modExchange f s).run = s.run := rfl
@[simp] theorem modExchange_releasedCount : (modExchange f s).releasedCount = s.releasedCount := rfl
@[simp] theorem modExchange_targets : (modExchange f s).targets = s.targets := rfl
@[simp] theorem modExchange_timerLength : (modExchange f s).timerLength = s.timerLength := rfl
@[simp] theorem modExchange_expired : (modExchange f s).expired = s.expired := rfl
@[simp] theorem modExchange_sweep : (modExchange f s).sweep = s.sweep := rfl
@[simp] theorem modExchange_sweepLength : (modExchange f s).sweepLength = s.sweepLength := rfl
@[simp] theorem modExchange_nextSweepLength : (modExchange f s).nextSweepLength = s.nextSweepLength := rfl
@[simp] theorem modExchange_pollWindow : (modExchange f s).pollWindow = s.pollWindow := rfl
@[simp] theorem modExchange_nextPollWindow : (modExchange f s).nextPollWindow = s.nextPollWindow := rfl
@[simp] theorem modExchange_pollsRun : (modExchange f s).pollsRun = s.pollsRun := rfl
@[simp] theorem modExchange_phase : (modExchange f s).phase = s.phase := rfl
@[simp] theorem modExchange_overruns : (modExchange f s).overruns = s.overruns := rfl
@[simp] theorem modExchange_sched : (modExchange f s).sched = s.sched := rfl
@[simp] theorem modExchange_pointer : (modExchange f s).pointer = s.pointer := rfl
@[simp] theorem modExchange_polls : (modExchange f s).polls = s.polls := rfl
@[simp] theorem modExchange_pollPending : (modExchange f s).pollPending = s.pollPending := rfl
@[simp] theorem modExchange_resvs : (modExchange f s).resvs = s.resvs := rfl
@[simp] theorem modExchange_reports : (modExchange f s).reports = s.reports := rfl
@[simp] theorem modExchange_proposal : (modExchange f s).proposal = s.proposal := rfl
@[simp] theorem modExchange_lastNumber : (modExchange f s).lastNumber = s.lastNumber := rfl
@[simp] theorem modExchange_decision : (modExchange f s).decision = s.decision := rfl
@[simp] theorem modExchange_fresh : (modExchange f s).fresh = s.fresh := rfl
@[simp] theorem modExchange_pending : (modExchange f s).pending = s.pending := rfl
@[simp] theorem modExchange_wires : (modExchange f s).wires = s.wires := rfl
end

section
variable (c : ChainIx)

@[simp] theorem grantTo_ports : (grantTo c s).ports = s.ports := by simp only [grantTo]
@[simp] theorem grantTo_slots : (grantTo c s).slots = s.slots := by simp only [grantTo]
@[simp] theorem grantTo_quotas : (grantTo c s).quotas = s.quotas := by simp only [grantTo]
@[simp] theorem grantTo_grant : (grantTo c s).grant = some { chain := c, completed := 0 } := by simp only [grantTo]
@[simp] theorem grantTo_exchange : (grantTo c s).exchange = s.exchange := by simp only [grantTo]
@[simp] theorem grantTo_rate : (grantTo c s).rate = s.rate := by simp only [grantTo]
@[simp] theorem grantTo_line : (grantTo c s).line = s.line := by simp only [grantTo]
@[simp] theorem grantTo_run : (grantTo c s).run = s.run := by simp only [grantTo]
@[simp] theorem grantTo_releasedCount : (grantTo c s).releasedCount = s.releasedCount := by simp only [grantTo]
@[simp] theorem grantTo_targets : (grantTo c s).targets = s.targets := by simp only [grantTo]
@[simp] theorem grantTo_timerLength : (grantTo c s).timerLength = s.timerLength := by simp only [grantTo]
@[simp] theorem grantTo_expired : (grantTo c s).expired = s.expired := by simp only [grantTo]
@[simp] theorem grantTo_sweep : (grantTo c s).sweep = s.sweep := by simp only [grantTo]
@[simp] theorem grantTo_sweepLength : (grantTo c s).sweepLength = s.sweepLength := by simp only [grantTo]
@[simp] theorem grantTo_nextSweepLength : (grantTo c s).nextSweepLength = s.nextSweepLength := by simp only [grantTo]
@[simp] theorem grantTo_pollWindow : (grantTo c s).pollWindow = s.pollWindow := by simp only [grantTo]
@[simp] theorem grantTo_nextPollWindow : (grantTo c s).nextPollWindow = s.nextPollWindow := by simp only [grantTo]
@[simp] theorem grantTo_pollsRun : (grantTo c s).pollsRun = s.pollsRun := by simp only [grantTo]
@[simp] theorem grantTo_phase : (grantTo c s).phase = s.phase := by simp only [grantTo]
@[simp] theorem grantTo_overruns : (grantTo c s).overruns = s.overruns := by simp only [grantTo]
@[simp] theorem grantTo_sched : (grantTo c s).sched = s.sched := by simp only [grantTo]
@[simp] theorem grantTo_pointer : (grantTo c s).pointer = c := by simp only [grantTo]
@[simp] theorem grantTo_polls : (grantTo c s).polls = s.polls := by simp only [grantTo]
@[simp] theorem grantTo_pollPending : (grantTo c s).pollPending = s.pollPending := by simp only [grantTo]
@[simp] theorem grantTo_resvs : (grantTo c s).resvs = s.resvs := by simp only [grantTo]
@[simp] theorem grantTo_reports : (grantTo c s).reports = s.reports := by simp only [grantTo]
@[simp] theorem grantTo_proposal : (grantTo c s).proposal = s.proposal := by simp only [grantTo]
@[simp] theorem grantTo_lastNumber : (grantTo c s).lastNumber = s.lastNumber := by simp only [grantTo]
@[simp] theorem grantTo_decision : (grantTo c s).decision = s.decision := by simp only [grantTo]
@[simp] theorem grantTo_fresh : (grantTo c s).fresh = s.fresh := by simp only [grantTo]
@[simp] theorem grantTo_pending : (grantTo c s).pending = s.pending := by simp only [grantTo]
@[simp] theorem grantTo_wires : (grantTo c s).wires = s.wires := by simp only [grantTo]
end

section

@[simp] theorem skipSilent_ports : (skipSilent s).ports = s.ports := rfl
@[simp] theorem skipSilent_slots : (skipSilent s).slots = s.slots := rfl
@[simp] theorem skipSilent_quotas : (skipSilent s).quotas = s.quotas := rfl
@[simp] theorem skipSilent_chains : (skipSilent s).chains = s.chains := rfl
@[simp] theorem skipSilent_grant : (skipSilent s).grant = s.grant := rfl
@[simp] theorem skipSilent_exchange : (skipSilent s).exchange = s.exchange := rfl
@[simp] theorem skipSilent_rate : (skipSilent s).rate = s.rate := rfl
@[simp] theorem skipSilent_line : (skipSilent s).line = s.line := rfl
@[simp] theorem skipSilent_run : (skipSilent s).run = s.run := rfl
@[simp] theorem skipSilent_releasedCount : (skipSilent s).releasedCount = s.releasedCount := rfl
@[simp] theorem skipSilent_targets : (skipSilent s).targets = s.targets := rfl
@[simp] theorem skipSilent_timerLength : (skipSilent s).timerLength = s.timerLength := rfl
@[simp] theorem skipSilent_expired : (skipSilent s).expired = s.expired := rfl
@[simp] theorem skipSilent_sweep : (skipSilent s).sweep = s.sweep := rfl
@[simp] theorem skipSilent_sweepLength : (skipSilent s).sweepLength = s.sweepLength := rfl
@[simp] theorem skipSilent_nextSweepLength : (skipSilent s).nextSweepLength = s.nextSweepLength := rfl
@[simp] theorem skipSilent_pollWindow : (skipSilent s).pollWindow = s.pollWindow := rfl
@[simp] theorem skipSilent_nextPollWindow : (skipSilent s).nextPollWindow = s.nextPollWindow := rfl
@[simp] theorem skipSilent_pollsRun : (skipSilent s).pollsRun = s.pollsRun := rfl
@[simp] theorem skipSilent_phase : (skipSilent s).phase = s.phase := rfl
@[simp] theorem skipSilent_overruns : (skipSilent s).overruns = s.overruns := rfl
@[simp] theorem skipSilent_sched : (skipSilent s).sched = s.sched := rfl
@[simp] theorem skipSilent_pointer : (skipSilent s).pointer = s.pointer := rfl
@[simp] theorem skipSilent_polls : (skipSilent s).polls = s.polls := rfl
@[simp] theorem skipSilent_pollPending : (skipSilent s).pollPending = s.pollPending.dropWhile s.skips := rfl
@[simp] theorem skipSilent_resvs : (skipSilent s).resvs = s.resvs := rfl
@[simp] theorem skipSilent_reports : (skipSilent s).reports = s.reports := rfl
@[simp] theorem skipSilent_proposal : (skipSilent s).proposal = s.proposal := rfl
@[simp] theorem skipSilent_lastNumber : (skipSilent s).lastNumber = s.lastNumber := rfl
@[simp] theorem skipSilent_decision : (skipSilent s).decision = s.decision := rfl
@[simp] theorem skipSilent_fresh : (skipSilent s).fresh = s.fresh := rfl
@[simp] theorem skipSilent_pending : (skipSilent s).pending = s.pending := rfl
@[simp] theorem skipSilent_wires : (skipSilent s).wires = s.wires := rfl
end

section

@[simp] theorem advanceSweep_ports : (advanceSweep s).ports = s.ports := rfl
@[simp] theorem advanceSweep_slots : (advanceSweep s).slots = s.slots := rfl
@[simp] theorem advanceSweep_quotas : (advanceSweep s).quotas = s.quotas := rfl
@[simp] theorem advanceSweep_chains : (advanceSweep s).chains = s.chains := rfl
@[simp] theorem advanceSweep_grant : (advanceSweep s).grant = s.grant := rfl
@[simp] theorem advanceSweep_exchange : (advanceSweep s).exchange = s.exchange := rfl
@[simp] theorem advanceSweep_rate : (advanceSweep s).rate = s.rate := rfl
@[simp] theorem advanceSweep_line : (advanceSweep s).line = s.line := rfl
@[simp] theorem advanceSweep_run : (advanceSweep s).run = s.run := rfl
@[simp] theorem advanceSweep_releasedCount : (advanceSweep s).releasedCount = s.releasedCount := rfl
@[simp] theorem advanceSweep_targets : (advanceSweep s).targets = s.targets := rfl
@[simp] theorem advanceSweep_timerLength : (advanceSweep s).timerLength = s.nextSweepLength.getD s.sweepLength := rfl
@[simp] theorem advanceSweep_expired : (advanceSweep s).expired = false := rfl
@[simp] theorem advanceSweep_sweep : (advanceSweep s).sweep = s.sweep + 1 := rfl
@[simp] theorem advanceSweep_sweepLength : (advanceSweep s).sweepLength = s.nextSweepLength.getD s.sweepLength := rfl
@[simp] theorem advanceSweep_nextSweepLength : (advanceSweep s).nextSweepLength = none := rfl
@[simp] theorem advanceSweep_pollWindow : (advanceSweep s).pollWindow = s.nextPollWindow.getD s.pollWindow := rfl
@[simp] theorem advanceSweep_nextPollWindow : (advanceSweep s).nextPollWindow = none := rfl
@[simp] theorem advanceSweep_pollsRun : (advanceSweep s).pollsRun = 0 := rfl
@[simp] theorem advanceSweep_phase : (advanceSweep s).phase = .poll := rfl
@[simp] theorem advanceSweep_overruns : (advanceSweep s).overruns = s.overruns := rfl
@[simp] theorem advanceSweep_sched : (advanceSweep s).sched = s.sched := rfl
@[simp] theorem advanceSweep_pointer : (advanceSweep s).pointer = s.pointer := rfl
@[simp] theorem advanceSweep_polls : (advanceSweep s).polls = s.polls := rfl
@[simp] theorem advanceSweep_pollPending : (advanceSweep s).pollPending = s.pollPending := rfl
@[simp] theorem advanceSweep_resvs : (advanceSweep s).resvs = s.resvs := rfl
@[simp] theorem advanceSweep_reports : (advanceSweep s).reports = s.reports := rfl
@[simp] theorem advanceSweep_proposal : (advanceSweep s).proposal = s.proposal := rfl
@[simp] theorem advanceSweep_lastNumber : (advanceSweep s).lastNumber = s.lastNumber := rfl
@[simp] theorem advanceSweep_decision : (advanceSweep s).decision = s.decision := rfl
@[simp] theorem advanceSweep_fresh : (advanceSweep s).fresh = s.fresh := rfl
@[simp] theorem advanceSweep_pending : (advanceSweep s).pending = s.pending := rfl
@[simp] theorem advanceSweep_wires : (advanceSweep s).wires = s.wires := rfl
end

section

@[simp] theorem pollTurnover_ports : (pollTurnover s).ports = s.ports := by simp only [pollTurnover]
@[simp] theorem pollTurnover_slots : (pollTurnover s).slots = s.slots := by simp only [pollTurnover]
@[simp] theorem pollTurnover_quotas : (pollTurnover s).quotas = s.quotas := by simp only [pollTurnover]
@[simp] theorem pollTurnover_chains : (pollTurnover s).chains = s.chains := by simp only [pollTurnover]
@[simp] theorem pollTurnover_grant : (pollTurnover s).grant = s.grant := by simp only [pollTurnover]
@[simp] theorem pollTurnover_exchange : (pollTurnover s).exchange = s.exchange := by simp only [pollTurnover]
@[simp] theorem pollTurnover_rate : (pollTurnover s).rate = s.rate := by simp only [pollTurnover]
@[simp] theorem pollTurnover_line : (pollTurnover s).line = s.line := by simp only [pollTurnover]
@[simp] theorem pollTurnover_run : (pollTurnover s).run = s.run := by simp only [pollTurnover]
@[simp] theorem pollTurnover_releasedCount : (pollTurnover s).releasedCount = s.releasedCount := by simp only [pollTurnover]
@[simp] theorem pollTurnover_targets : (pollTurnover s).targets = s.targets := by simp only [pollTurnover]
@[simp] theorem pollTurnover_timerLength : (pollTurnover s).timerLength = s.timerLength := by simp only [pollTurnover]
@[simp] theorem pollTurnover_expired : (pollTurnover s).expired = s.expired := by simp only [pollTurnover]
@[simp] theorem pollTurnover_sweep : (pollTurnover s).sweep = s.sweep := by simp only [pollTurnover]
@[simp] theorem pollTurnover_sweepLength : (pollTurnover s).sweepLength = s.sweepLength := by simp only [pollTurnover]
@[simp] theorem pollTurnover_nextSweepLength : (pollTurnover s).nextSweepLength = s.nextSweepLength := by simp only [pollTurnover]
@[simp] theorem pollTurnover_pollWindow : (pollTurnover s).pollWindow = s.pollWindow := by simp only [pollTurnover]
@[simp] theorem pollTurnover_nextPollWindow : (pollTurnover s).nextPollWindow = s.nextPollWindow := by simp only [pollTurnover]
@[simp] theorem pollTurnover_pollsRun : (pollTurnover s).pollsRun = s.pollsRun := by simp only [pollTurnover]
@[simp] theorem pollTurnover_phase : (pollTurnover s).phase = s.phase := by simp only [pollTurnover]
@[simp] theorem pollTurnover_overruns : (pollTurnover s).overruns = s.overruns := by simp only [pollTurnover]
@[simp] theorem pollTurnover_sched : (pollTurnover s).sched = s.sched := by simp only [pollTurnover]
@[simp] theorem pollTurnover_pointer : (pollTurnover s).pointer = s.pointer := by simp only [pollTurnover]
@[simp] theorem pollTurnover_resvs : (pollTurnover s).resvs = s.resvs := by simp only [pollTurnover]
@[simp] theorem pollTurnover_reports : (pollTurnover s).reports = s.reports := by simp only [pollTurnover]
@[simp] theorem pollTurnover_proposal : (pollTurnover s).proposal = s.proposal := by simp only [pollTurnover]
@[simp] theorem pollTurnover_lastNumber : (pollTurnover s).lastNumber = s.lastNumber := by simp only [pollTurnover]
@[simp] theorem pollTurnover_decision : (pollTurnover s).decision = s.decision := by simp only [pollTurnover]
@[simp] theorem pollTurnover_fresh : (pollTurnover s).fresh = s.fresh := by simp only [pollTurnover]
@[simp] theorem pollTurnover_pending : (pollTurnover s).pending = s.pending := by simp only [pollTurnover]
@[simp] theorem pollTurnover_wires : (pollTurnover s).wires = s.wires := by simp only [pollTurnover]
end

section
variable (p : Port) (f : PortIf → PortIf)

@[simp] theorem modPort_ports : (modPort p f s).ports = modAt s.ports p f := rfl
@[simp] theorem modPort_slots : (modPort p f s).slots = s.slots := rfl
@[simp] theorem modPort_quotas : (modPort p f s).quotas = s.quotas := rfl
@[simp] theorem modPort_chains : (modPort p f s).chains = s.chains := rfl
@[simp] theorem modPort_grant : (modPort p f s).grant = s.grant := rfl
@[simp] theorem modPort_exchange : (modPort p f s).exchange = s.exchange := rfl
@[simp] theorem modPort_rate : (modPort p f s).rate = s.rate := rfl
@[simp] theorem modPort_line : (modPort p f s).line = s.line := rfl
@[simp] theorem modPort_run : (modPort p f s).run = s.run := rfl
@[simp] theorem modPort_releasedCount : (modPort p f s).releasedCount = s.releasedCount := rfl
@[simp] theorem modPort_targets : (modPort p f s).targets = s.targets := rfl
@[simp] theorem modPort_timerLength : (modPort p f s).timerLength = s.timerLength := rfl
@[simp] theorem modPort_expired : (modPort p f s).expired = s.expired := rfl
@[simp] theorem modPort_sweep : (modPort p f s).sweep = s.sweep := rfl
@[simp] theorem modPort_sweepLength : (modPort p f s).sweepLength = s.sweepLength := rfl
@[simp] theorem modPort_nextSweepLength : (modPort p f s).nextSweepLength = s.nextSweepLength := rfl
@[simp] theorem modPort_pollWindow : (modPort p f s).pollWindow = s.pollWindow := rfl
@[simp] theorem modPort_nextPollWindow : (modPort p f s).nextPollWindow = s.nextPollWindow := rfl
@[simp] theorem modPort_pollsRun : (modPort p f s).pollsRun = s.pollsRun := rfl
@[simp] theorem modPort_phase : (modPort p f s).phase = s.phase := rfl
@[simp] theorem modPort_overruns : (modPort p f s).overruns = s.overruns := rfl
@[simp] theorem modPort_sched : (modPort p f s).sched = s.sched := rfl
@[simp] theorem modPort_pointer : (modPort p f s).pointer = s.pointer := rfl
@[simp] theorem modPort_polls : (modPort p f s).polls = s.polls := rfl
@[simp] theorem modPort_pollPending : (modPort p f s).pollPending = s.pollPending := rfl
@[simp] theorem modPort_resvs : (modPort p f s).resvs = s.resvs := rfl
@[simp] theorem modPort_reports : (modPort p f s).reports = s.reports := rfl
@[simp] theorem modPort_proposal : (modPort p f s).proposal = s.proposal := rfl
@[simp] theorem modPort_lastNumber : (modPort p f s).lastNumber = s.lastNumber := rfl
@[simp] theorem modPort_decision : (modPort p f s).decision = s.decision := rfl
@[simp] theorem modPort_fresh : (modPort p f s).fresh = s.fresh := rfl
@[simp] theorem modPort_pending : (modPort p f s).pending = s.pending := rfl
@[simp] theorem modPort_wires : (modPort p f s).wires = s.wires := rfl
end

section
variable (c : ChainIx) (f : Chain → Chain)

@[simp] theorem modChain_ports : (modChain c f s).ports = s.ports := rfl
@[simp] theorem modChain_slots : (modChain c f s).slots = s.slots := rfl
@[simp] theorem modChain_quotas : (modChain c f s).quotas = s.quotas := rfl
@[simp] theorem modChain_chains : (modChain c f s).chains = modAt s.chains c f := rfl
@[simp] theorem modChain_grant : (modChain c f s).grant = s.grant := rfl
@[simp] theorem modChain_exchange : (modChain c f s).exchange = s.exchange := rfl
@[simp] theorem modChain_rate : (modChain c f s).rate = s.rate := rfl
@[simp] theorem modChain_line : (modChain c f s).line = s.line := rfl
@[simp] theorem modChain_run : (modChain c f s).run = s.run := rfl
@[simp] theorem modChain_releasedCount : (modChain c f s).releasedCount = s.releasedCount := rfl
@[simp] theorem modChain_targets : (modChain c f s).targets = s.targets := rfl
@[simp] theorem modChain_timerLength : (modChain c f s).timerLength = s.timerLength := rfl
@[simp] theorem modChain_expired : (modChain c f s).expired = s.expired := rfl
@[simp] theorem modChain_sweep : (modChain c f s).sweep = s.sweep := rfl
@[simp] theorem modChain_sweepLength : (modChain c f s).sweepLength = s.sweepLength := rfl
@[simp] theorem modChain_nextSweepLength : (modChain c f s).nextSweepLength = s.nextSweepLength := rfl
@[simp] theorem modChain_pollWindow : (modChain c f s).pollWindow = s.pollWindow := rfl
@[simp] theorem modChain_nextPollWindow : (modChain c f s).nextPollWindow = s.nextPollWindow := rfl
@[simp] theorem modChain_pollsRun : (modChain c f s).pollsRun = s.pollsRun := rfl
@[simp] theorem modChain_phase : (modChain c f s).phase = s.phase := rfl
@[simp] theorem modChain_overruns : (modChain c f s).overruns = s.overruns := rfl
@[simp] theorem modChain_sched : (modChain c f s).sched = s.sched := rfl
@[simp] theorem modChain_pointer : (modChain c f s).pointer = s.pointer := rfl
@[simp] theorem modChain_polls : (modChain c f s).polls = s.polls := rfl
@[simp] theorem modChain_pollPending : (modChain c f s).pollPending = s.pollPending := rfl
@[simp] theorem modChain_resvs : (modChain c f s).resvs = s.resvs := rfl
@[simp] theorem modChain_reports : (modChain c f s).reports = s.reports := rfl
@[simp] theorem modChain_proposal : (modChain c f s).proposal = s.proposal := rfl
@[simp] theorem modChain_lastNumber : (modChain c f s).lastNumber = s.lastNumber := rfl
@[simp] theorem modChain_decision : (modChain c f s).decision = s.decision := rfl
@[simp] theorem modChain_fresh : (modChain c f s).fresh = s.fresh := rfl
@[simp] theorem modChain_pending : (modChain c f s).pending = s.pending := rfl
@[simp] theorem modChain_wires : (modChain c f s).wires = s.wires := rfl
end

section
variable (i : PollIx) (f : PollEntry → PollEntry)

@[simp] theorem modPoll_ports : (modPoll i f s).ports = s.ports := rfl
@[simp] theorem modPoll_slots : (modPoll i f s).slots = s.slots := rfl
@[simp] theorem modPoll_quotas : (modPoll i f s).quotas = s.quotas := rfl
@[simp] theorem modPoll_chains : (modPoll i f s).chains = s.chains := rfl
@[simp] theorem modPoll_grant : (modPoll i f s).grant = s.grant := rfl
@[simp] theorem modPoll_exchange : (modPoll i f s).exchange = s.exchange := rfl
@[simp] theorem modPoll_rate : (modPoll i f s).rate = s.rate := rfl
@[simp] theorem modPoll_line : (modPoll i f s).line = s.line := rfl
@[simp] theorem modPoll_run : (modPoll i f s).run = s.run := rfl
@[simp] theorem modPoll_releasedCount : (modPoll i f s).releasedCount = s.releasedCount := rfl
@[simp] theorem modPoll_targets : (modPoll i f s).targets = s.targets := rfl
@[simp] theorem modPoll_timerLength : (modPoll i f s).timerLength = s.timerLength := rfl
@[simp] theorem modPoll_expired : (modPoll i f s).expired = s.expired := rfl
@[simp] theorem modPoll_sweep : (modPoll i f s).sweep = s.sweep := rfl
@[simp] theorem modPoll_sweepLength : (modPoll i f s).sweepLength = s.sweepLength := rfl
@[simp] theorem modPoll_nextSweepLength : (modPoll i f s).nextSweepLength = s.nextSweepLength := rfl
@[simp] theorem modPoll_pollWindow : (modPoll i f s).pollWindow = s.pollWindow := rfl
@[simp] theorem modPoll_nextPollWindow : (modPoll i f s).nextPollWindow = s.nextPollWindow := rfl
@[simp] theorem modPoll_pollsRun : (modPoll i f s).pollsRun = s.pollsRun := rfl
@[simp] theorem modPoll_phase : (modPoll i f s).phase = s.phase := rfl
@[simp] theorem modPoll_overruns : (modPoll i f s).overruns = s.overruns := rfl
@[simp] theorem modPoll_sched : (modPoll i f s).sched = s.sched := rfl
@[simp] theorem modPoll_pointer : (modPoll i f s).pointer = s.pointer := rfl
@[simp] theorem modPoll_polls : (modPoll i f s).polls = modAt s.polls i f := rfl
@[simp] theorem modPoll_pollPending : (modPoll i f s).pollPending = s.pollPending := rfl
@[simp] theorem modPoll_resvs : (modPoll i f s).resvs = s.resvs := rfl
@[simp] theorem modPoll_reports : (modPoll i f s).reports = s.reports := rfl
@[simp] theorem modPoll_proposal : (modPoll i f s).proposal = s.proposal := rfl
@[simp] theorem modPoll_lastNumber : (modPoll i f s).lastNumber = s.lastNumber := rfl
@[simp] theorem modPoll_decision : (modPoll i f s).decision = s.decision := rfl
@[simp] theorem modPoll_fresh : (modPoll i f s).fresh = s.fresh := rfl
@[simp] theorem modPoll_pending : (modPoll i f s).pending = s.pending := rfl
@[simp] theorem modPoll_wires : (modPoll i f s).wires = s.wires := rfl
end

section
variable (e : ResvIx) (r : Option Reservation)

@[simp] theorem setResv_ports : (setResv e r s).ports = s.ports := rfl
@[simp] theorem setResv_slots : (setResv e r s).slots = s.slots := rfl
@[simp] theorem setResv_quotas : (setResv e r s).quotas = s.quotas := rfl
@[simp] theorem setResv_chains : (setResv e r s).chains = s.chains := rfl
@[simp] theorem setResv_grant : (setResv e r s).grant = s.grant := rfl
@[simp] theorem setResv_exchange : (setResv e r s).exchange = s.exchange := rfl
@[simp] theorem setResv_rate : (setResv e r s).rate = s.rate := rfl
@[simp] theorem setResv_line : (setResv e r s).line = s.line := rfl
@[simp] theorem setResv_run : (setResv e r s).run = s.run := rfl
@[simp] theorem setResv_releasedCount : (setResv e r s).releasedCount = s.releasedCount := rfl
@[simp] theorem setResv_targets : (setResv e r s).targets = s.targets := rfl
@[simp] theorem setResv_timerLength : (setResv e r s).timerLength = s.timerLength := rfl
@[simp] theorem setResv_expired : (setResv e r s).expired = s.expired := rfl
@[simp] theorem setResv_sweep : (setResv e r s).sweep = s.sweep := rfl
@[simp] theorem setResv_sweepLength : (setResv e r s).sweepLength = s.sweepLength := rfl
@[simp] theorem setResv_nextSweepLength : (setResv e r s).nextSweepLength = s.nextSweepLength := rfl
@[simp] theorem setResv_pollWindow : (setResv e r s).pollWindow = s.pollWindow := rfl
@[simp] theorem setResv_nextPollWindow : (setResv e r s).nextPollWindow = s.nextPollWindow := rfl
@[simp] theorem setResv_pollsRun : (setResv e r s).pollsRun = s.pollsRun := rfl
@[simp] theorem setResv_phase : (setResv e r s).phase = s.phase := rfl
@[simp] theorem setResv_overruns : (setResv e r s).overruns = s.overruns := rfl
@[simp] theorem setResv_sched : (setResv e r s).sched = s.sched := rfl
@[simp] theorem setResv_pointer : (setResv e r s).pointer = s.pointer := rfl
@[simp] theorem setResv_polls : (setResv e r s).polls = s.polls := rfl
@[simp] theorem setResv_pollPending : (setResv e r s).pollPending = s.pollPending := rfl
@[simp] theorem setResv_resvs : (setResv e r s).resvs = modAt s.resvs e fun _ => r := rfl
@[simp] theorem setResv_reports : (setResv e r s).reports = s.reports := rfl
@[simp] theorem setResv_proposal : (setResv e r s).proposal = s.proposal := rfl
@[simp] theorem setResv_lastNumber : (setResv e r s).lastNumber = s.lastNumber := rfl
@[simp] theorem setResv_decision : (setResv e r s).decision = s.decision := rfl
@[simp] theorem setResv_fresh : (setResv e r s).fresh = s.fresh := rfl
@[simp] theorem setResv_pending : (setResv e r s).pending = s.pending := rfl
@[simp] theorem setResv_wires : (setResv e r s).wires = s.wires := rfl
end

section
variable (p : Port) (f : Report → Report)

@[simp] theorem modReport_ports : (modReport p f s).ports = s.ports := rfl
@[simp] theorem modReport_slots : (modReport p f s).slots = s.slots := rfl
@[simp] theorem modReport_quotas : (modReport p f s).quotas = s.quotas := rfl
@[simp] theorem modReport_chains : (modReport p f s).chains = s.chains := rfl
@[simp] theorem modReport_grant : (modReport p f s).grant = s.grant := rfl
@[simp] theorem modReport_exchange : (modReport p f s).exchange = s.exchange := rfl
@[simp] theorem modReport_rate : (modReport p f s).rate = s.rate := rfl
@[simp] theorem modReport_line : (modReport p f s).line = s.line := rfl
@[simp] theorem modReport_run : (modReport p f s).run = s.run := rfl
@[simp] theorem modReport_releasedCount : (modReport p f s).releasedCount = s.releasedCount := rfl
@[simp] theorem modReport_targets : (modReport p f s).targets = s.targets := rfl
@[simp] theorem modReport_timerLength : (modReport p f s).timerLength = s.timerLength := rfl
@[simp] theorem modReport_expired : (modReport p f s).expired = s.expired := rfl
@[simp] theorem modReport_sweep : (modReport p f s).sweep = s.sweep := rfl
@[simp] theorem modReport_sweepLength : (modReport p f s).sweepLength = s.sweepLength := rfl
@[simp] theorem modReport_nextSweepLength : (modReport p f s).nextSweepLength = s.nextSweepLength := rfl
@[simp] theorem modReport_pollWindow : (modReport p f s).pollWindow = s.pollWindow := rfl
@[simp] theorem modReport_nextPollWindow : (modReport p f s).nextPollWindow = s.nextPollWindow := rfl
@[simp] theorem modReport_pollsRun : (modReport p f s).pollsRun = s.pollsRun := rfl
@[simp] theorem modReport_phase : (modReport p f s).phase = s.phase := rfl
@[simp] theorem modReport_overruns : (modReport p f s).overruns = s.overruns := rfl
@[simp] theorem modReport_sched : (modReport p f s).sched = s.sched := rfl
@[simp] theorem modReport_pointer : (modReport p f s).pointer = s.pointer := rfl
@[simp] theorem modReport_polls : (modReport p f s).polls = s.polls := rfl
@[simp] theorem modReport_pollPending : (modReport p f s).pollPending = s.pollPending := rfl
@[simp] theorem modReport_resvs : (modReport p f s).resvs = s.resvs := rfl
@[simp] theorem modReport_reports : (modReport p f s).reports = modAt s.reports p f := rfl
@[simp] theorem modReport_proposal : (modReport p f s).proposal = s.proposal := rfl
@[simp] theorem modReport_lastNumber : (modReport p f s).lastNumber = s.lastNumber := rfl
@[simp] theorem modReport_decision : (modReport p f s).decision = s.decision := rfl
@[simp] theorem modReport_fresh : (modReport p f s).fresh = s.fresh := rfl
@[simp] theorem modReport_pending : (modReport p f s).pending = s.pending := rfl
@[simp] theorem modReport_wires : (modReport p f s).wires = s.wires := rfl
end

section

@[simp] theorem overrun_ports : (overrun s).ports = s.ports := rfl
@[simp] theorem overrun_slots : (overrun s).slots = s.slots := rfl
@[simp] theorem overrun_quotas : (overrun s).quotas = s.quotas := rfl
@[simp] theorem overrun_chains : (overrun s).chains = s.chains := rfl
@[simp] theorem overrun_grant : (overrun s).grant = none := rfl
@[simp] theorem overrun_exchange : (overrun s).exchange = s.exchange := rfl
@[simp] theorem overrun_rate : (overrun s).rate = s.rate := rfl
@[simp] theorem overrun_line : (overrun s).line = s.line := rfl
@[simp] theorem overrun_run : (overrun s).run = s.run := rfl
@[simp] theorem overrun_releasedCount : (overrun s).releasedCount = s.releasedCount := rfl
@[simp] theorem overrun_targets : (overrun s).targets = s.targets := rfl
@[simp] theorem overrun_timerLength : (overrun s).timerLength = s.timerLength := rfl
@[simp] theorem overrun_expired : (overrun s).expired = true := rfl
@[simp] theorem overrun_sweep : (overrun s).sweep = s.sweep := rfl
@[simp] theorem overrun_sweepLength : (overrun s).sweepLength = s.sweepLength := rfl
@[simp] theorem overrun_nextSweepLength : (overrun s).nextSweepLength = s.nextSweepLength := rfl
@[simp] theorem overrun_pollWindow : (overrun s).pollWindow = s.pollWindow := rfl
@[simp] theorem overrun_nextPollWindow : (overrun s).nextPollWindow = s.nextPollWindow := rfl
@[simp] theorem overrun_pollsRun : (overrun s).pollsRun = s.pollsRun := rfl
@[simp] theorem overrun_phase : (overrun s).phase = s.phase := rfl
@[simp] theorem overrun_overruns : (overrun s).overruns = satInc 255 s.overruns := rfl
@[simp] theorem overrun_sched : (overrun s).sched = s.sched := rfl
@[simp] theorem overrun_pointer : (overrun s).pointer = s.pointer := rfl
@[simp] theorem overrun_polls : (overrun s).polls = s.polls := rfl
@[simp] theorem overrun_pollPending : (overrun s).pollPending = s.pollPending := rfl
@[simp] theorem overrun_resvs : (overrun s).resvs = s.resvs := rfl
@[simp] theorem overrun_reports : (overrun s).reports = s.reports := rfl
@[simp] theorem overrun_proposal : (overrun s).proposal = s.proposal := rfl
@[simp] theorem overrun_lastNumber : (overrun s).lastNumber = s.lastNumber := rfl
@[simp] theorem overrun_decision : (overrun s).decision = s.decision := rfl
@[simp] theorem overrun_fresh : (overrun s).fresh = s.fresh := rfl
@[simp] theorem overrun_pending : (overrun s).pending = s.pending := rfl
@[simp] theorem overrun_wires : (overrun s).wires = s.wires := rfl
end

end Sys2Proof.Machine
end

