-- ==== Sys2Proof/Laws/Tables.lean ====
section
/-! SUPPORT. What reading an entry of a changed table gives. The simp forms have an index that is a number, as simp writes one. -/

namespace Sys2Proof.Machine

variable {α : Type} {n : Nat}

theorem modAt_get (v : Vector α n) (i j : Fin n) (f : α → α) :
    (modAt v i f)[j] = if j = i then f v[i] else v[j] := by
  simp only [modAt, Fin.getElem_fin, Vector.getElem_set]
  by_cases h : i.val = j.val
  · have : j = i := Fin.ext h.symm
    simp [this]
  · have : j ≠ i := fun e => h (by rw [e])
    simp [h, this]

@[simp] theorem modAt_getElem (v : Vector α n) (i : Fin n) (f : α → α) (k : Nat) (hk : k < n) :
    (modAt v i f)[k] = if k = i.val then f v[i.val] else v[k] := by
  simpa [Fin.ext_iff] using modAt_get v i ⟨k, hk⟩ f

theorem modAt_get_self (v : Vector α n) (i : Fin n) (f : α → α) : (modAt v i f)[i] = f v[i] := by
  rw [modAt_get, if_pos rfl]

theorem modAt_get_ne (v : Vector α n) {i j : Fin n} (f : α → α) (h : j ≠ i) : (modAt v i f)[j] = v[j] := by
  rw [modAt_get, if_neg h]

theorem tab_get (f : Fin n → α) (i : Fin n) : (tab f)[i] = f i := by simp [tab, Fin.getElem_fin]

@[simp] theorem tab_getElem (f : Fin n → α) (k : Nat) (hk : k < n) : (tab f)[k] = f ⟨k, hk⟩ := tab_get f ⟨k, hk⟩

/-- Two tables with the same entries are the same table. -/
theorem table_ext {v w : Vector α n} (h : ∀ i : Fin n, v[i] = w[i]) : v = w := by
  apply Vector.ext
  intro i hi
  exact h ⟨i, hi⟩

end Sys2Proof.Machine
end

