-- ==== Sys2Proof/Laws/Frames.lean ====
section
/-! SUPPORT. What the composed operations leave unchanged. `WorkFrame` is the frame of everything that moves records, chains,
polls and the bus within an event; `HostFrame` is the frame of a turnover and of an exchange's end, which also reach the sweep,
the leases and the proposal. -/

namespace Sys2Proof.Machine

/-- `t` differs from `s` at most in slots, chains, grant, exchange, targets, phase, polls run, scheduler state, pointer, polls,
pending list and reports. -/
structure WorkFrame (s t : State) : Prop where
  ports : t.ports = s.ports
  quotas : t.quotas = s.quotas
  rate : t.rate = s.rate
  line : t.line = s.line
  run : t.run = s.run
  releasedCount : t.releasedCount = s.releasedCount
  timerLength : t.timerLength = s.timerLength
  expired : t.expired = s.expired
  sweep : t.sweep = s.sweep
  sweepLength : t.sweepLength = s.sweepLength
  nextSweepLength : t.nextSweepLength = s.nextSweepLength
  pollWindow : t.pollWindow = s.pollWindow
  nextPollWindow : t.nextPollWindow = s.nextPollWindow
  overruns : t.overruns = s.overruns
  resvs : t.resvs = s.resvs
  proposal : t.proposal = s.proposal
  lastNumber : t.lastNumber = s.lastNumber
  decision : t.decision = s.decision
  fresh : t.fresh = s.fresh
  pending : t.pending = s.pending
  wires : t.wires = s.wires

namespace WorkFrame

variable {s t u : State}

theorem refl (s : State) : WorkFrame s s := by constructor <;> rfl

theorem trans (h : WorkFrame s t) (k : WorkFrame t u) : WorkFrame s u := by
  cases h; cases k; constructor <;> simp_all

/-- Attachment follows from the ports, which the frame keeps. -/
theorem attached (h : WorkFrame s t) (p : Port) : t.attached p = s.attached p := by
  simp only [State.attached, h.ports]

/-- The fence reads the Reservation Table alone, which the frame keeps. -/
theorem fenced (h : WorkFrame s t) (p : Port) (k : Kind) (a : BitVec 6) : t.fenced p k a = s.fenced p k a := by
  simp only [State.fenced, State.otherClaim, h.resvs]

end WorkFrame

variable (s : State)

theorem work_of_reports (r : Vector Report 4) : WorkFrame s { s with reports := r } := by constructor <;> rfl

theorem work_raise (c : Cause) (p : Port) : WorkFrame s (raise c p s) := by
  unfold raise; split
  · exact work_of_reports s _
  · exact .refl s

theorem work_mark (d : Deferred) (p : Port) : WorkFrame s (mark d p s) := by
  unfold mark; split
  · exact work_of_reports s _
  · exact .refl s

theorem work_raiseAll (c : Cause) : WorkFrame s (raiseAll c s) := work_of_reports s _

theorem work_markAll (d : Deferred) : WorkFrame s (markAll d s) := work_of_reports s _

theorem work_clearMarks : WorkFrame s (clearMarks s) := work_of_reports s _

theorem work_restoreMarks (e : Marks) : WorkFrame s (restoreMarks e s) := work_of_reports s _

theorem work_pendMarks (e : Marks) : WorkFrame s (pendMarks e s) := work_of_reports s _

theorem work_putRecord (i : SlotIx) (r : Record) : WorkFrame s (putRecord i r s) := by constructor <;> rfl

theorem work_setCancelPending (i : SlotIx) (r : Record) : WorkFrame s (setCancelPending i r s) := by
  unfold setCancelPending; split
  · exact .refl s
  · exact work_putRecord s i _

theorem work_freeSlot (i : SlotIx) : WorkFrame s (freeSlot i s) := by constructor <;> rfl

theorem work_unlist (i : SlotIx) : WorkFrame s (unlist i s) := by constructor <;> simp

theorem work_appendChain (c : ChainIx) (i : SlotIx) : WorkFrame s (appendChain c i s) := by constructor <;> rfl

theorem work_endGrant : WorkFrame s (endGrant s) := by constructor <;> rfl

theorem work_startExchange (e : Exchange) : WorkFrame s (startExchange e s) := by constructor <;> rfl

theorem work_haltHead (c : ChainIx) (i : SlotIx) (r : Record) (why : HaltReason) : WorkFrame s (haltHead c i r why s) :=
  (work_putRecord s i _).trans (work_mark _ .halt _)

theorem work_enqueueNote (p : Port) (i : SlotIx) : WorkFrame s (enqueueNote p i s) :=
  (work_of_reports s _).trans (work_mark _ .report p)

theorem work_retire (i : SlotIx) (r : Record) (k : EndKind) : WorkFrame s (retire i r k s) := by
  unfold retire
  have h := (work_unlist s i).trans
    (work_putRecord (unlist i s) i
      { r with state := .done, endKind := some k, completionSweep := some (unlist i s).sweep })
  split
  · exact h.trans (work_enqueueNote _ _ i)
  · exact h

theorem work_retireSlot (i : SlotIx) (k : EndKind) : WorkFrame s (retireSlot i k s) := by
  unfold retireSlot; split
  · exact work_retire s i _ k
  · exact .refl s

theorem work_retireAll (k : EndKind) (is : List SlotIx) : WorkFrame s (retireAll k is s) := by
  induction is generalizing s with
  | nil => exact .refl s
  | cons i is ih => exact (work_retireSlot s i k).trans (ih (retireSlot i k s))

theorem work_damageSlot (i : SlotIx) : WorkFrame s (damageSlot i s) := by
  unfold damageSlot; split
  · exact (work_unlist s i).trans (work_putRecord _ i _)
  · exact .refl s

theorem work_storeFault : WorkFrame s (storeFault s) := by constructor <;> rfl

theorem work_tryStart (c : ChainIx) : WorkFrame s (tryStart c s) := by
  unfold tryStart; split
  · exact work_endGrant s
  · split
    · exact (work_damageSlot s _).trans (work_storeFault _)
    · split
      · exact (work_haltHead s c _ _ .fenced).trans (work_endGrant _)
      · exact (work_putRecord s _ _).trans (work_startExchange _ _)

theorem work_of_grant (g : Option Grant) : WorkFrame s { s with grant := g } := by constructor <;> rfl

theorem work_burstContinue (c : ChainIx) : WorkFrame s (burstContinue c s) := by
  unfold burstContinue; split
  · split
    · split
      · exact (work_of_grant s _).trans (work_tryStart _ c)
      · exact work_endGrant s
    · exact .refl s
  · exact .refl s

theorem work_leaveCompleted (i : SlotIx) (r : Record) (o : Outcome) : WorkFrame s (leaveCompleted i r o s) := by
  unfold leaveCompleted; split
  · exact (work_unlist s i).trans (work_freeSlot _ i)
  · exact work_retire s i r .completed

theorem work_skipGroup (r : Record) (o : Outcome) : WorkFrame s (skipGroup r o s) := by
  unfold skipGroup; split
  · exact work_retireAll s .skipped _
  · exact .refl s

theorem work_completeRecord (i : SlotIx) (r : Record) (o : Outcome) (res : Result) :
    WorkFrame s (completeRecord i r o res s) :=
  ((work_leaveCompleted s i _ o).trans (work_skipGroup _ _ o)).trans (work_burstContinue _ _)

theorem work_requeueHead (i : SlotIx) (r : Record) : WorkFrame s (requeueHead i r s) :=
  (work_putRecord s i _).trans (work_endGrant _)

theorem work_haltAfterTry (i : SlotIx) (r : Record) (why : HaltReason) : WorkFrame s (haltAfterTry i r why s) :=
  (work_haltHead s r.home i r why).trans (work_endGrant _)

theorem work_spendBudget (i : SlotIx) (r : Record) : WorkFrame s (spendBudget i r s) := by
  unfold spendBudget; split
  · exact work_requeueHead s i r
  · dsimp only; split
    · exact work_haltAfterTry s i _ .exhausted
    · exact work_requeueHead s i _

theorem work_cancelled (i : SlotIx) (r : Record) : WorkFrame s (endGrant (retire i r .cancelled s)) :=
  (work_retire s i r .cancelled).trans (work_endGrant _)

theorem work_applyTryEnd (i : SlotIx) (r : Record) (e : TryEnd) (res : Result) : WorkFrame s (applyTryEnd i r e res s) := by
  unfold applyTryEnd
  dsimp only
  split
  · exact work_completeRecord s i _ .done res
  · exact work_completeRecord s i _ .short res
  · exact work_cancelled s i _
  · split
    · exact work_cancelled s i _
    · exact work_requeueHead s i _
  · split
    · exact work_cancelled s i _
    · exact work_requeueHead s i _
  · split
    · exact work_cancelled s i _
    · exact work_spendBudget s i _
  · split
    · exact work_cancelled s i _
    · exact work_spendBudget s i _
  · split
    · exact work_cancelled s i _
    · exact work_haltAfterTry s i _ .refused
  · split
    · exact work_cancelled s i _
    · exact work_haltAfterTry s i _ .overlong
  · exact work_requeueHead s i _
  · exact work_haltAfterTry s i _ .fenced

theorem work_midPoint (e : Exchange) (i : SlotIx) (r : Record) (old : Word) : WorkFrame s (midPoint e i r old s) := by
  unfold midPoint
  split
  · exact work_applyTryEnd s i r .midCancel .absent
  · split
    · exact work_applyTryEnd s i r .midFault .absent
    · split
      · exact work_applyTryEnd s i r .midFence .absent
      · exact work_startExchange s _

theorem work_recordOutcome (e : Exchange) (i : SlotIx) (g : Byte) (o : Outcome) (ws : List Word) :
    WorkFrame s (recordOutcome e i g o ws s) := by
  unfold recordOutcome
  split
  · exact .refl s
  · split
    · exact .refl s
    · split
      · exact work_freeSlot s i
      · split
        · exact work_midPoint s _ i _ _
        · exact work_applyTryEnd s i _ _ _
      all_goals exact .refl s

theorem work_of_polls (ps : Vector PollEntry 48) : WorkFrame s { s with polls := ps } := by constructor <;> rfl

theorem work_of_pollPending (l : List PollIx) : WorkFrame s { s with pollPending := l } := by constructor <;> rfl

theorem work_pollOutcome (i : PollIx) (edit : Byte) (o : Outcome) (ws : List Word) :
    WorkFrame s (pollOutcome i edit o ws s) := by
  unfold pollOutcome
  split
  · exact .refl s
  · split
    · exact .refl s
    · split
      · split
        · exact .refl s
        · exact work_of_pollPending s _
      · dsimp only; split
        · split
          · exact (work_of_polls s _).trans (work_mark _ .stale _)
          · exact work_of_polls s _
        · exact work_of_polls s _

theorem work_handOff (e : Exchange) (o : Outcome) (ws : List Word) : WorkFrame s (handOff e o ws s) := by
  unfold handOff; split
  · exact work_recordOutcome s e _ _ o ws
  · exact work_pollOutcome s _ _ o ws

theorem work_updateTarget (e : Exchange) (o : Outcome) : WorkFrame s (updateTarget e o s) := by
  have h : ∀ ts : Vector Target 63, WorkFrame s { s with targets := ts } := fun ts => by constructor <;> rfl
  unfold updateTarget; split
  · exact .refl s
  · split
    · exact .refl s
    · dsimp only; split
      · exact (h _).trans (work_markAll _ .target)
      · exact h _

theorem work_phaseTest : WorkFrame s (phaseTest s) := by
  unfold phaseTest; split
  · constructor <;> rfl
  · exact .refl s

theorem work_grantTo (c : ChainIx) : WorkFrame s (grantTo c s) := by constructor <;> simp

theorem work_offerChains (n : Nat) : WorkFrame s (offerChains n s) := by
  induction n generalizing s with
  | zero => exact .refl s
  | succ n ih =>
    unfold offerChains; split
    · split
      · exact .refl s
      · exact ((work_grantTo s _).trans (work_tryStart _ _)).trans (ih _)
    · exact .refl s

theorem work_startPoll : WorkFrame s (startPoll s) := by
  unfold startPoll; split
  · exact .refl s
  · split
    · exact work_of_pollPending s _
    · constructor <;> rfl

/-- What an offer of the bus leaves unchanged (R86). -/
theorem work_offerBus : WorkFrame s (offerBus s) := by
  unfold offerBus
  dsimp only
  refine (work_phaseTest s).trans ?_
  split
  · split
    · refine WorkFrame.trans (work_of_pollPending _ _) ((work_phaseTest (skipSilent (phaseTest s))).trans ?_)
      split
      · exact work_startPoll _
      · exact work_offerChains _ 17
    · exact work_offerChains _ 17
  · exact .refl _

theorem work_drained : WorkFrame s (drained s) := by
  unfold drained; split
  · constructor <;> rfl
  · exact .refl s

theorem work_disposeDamaged (i : SlotIx) : WorkFrame s (disposeDamaged s i) := by
  unfold disposeDamaged; split
  · exact .refl s
  · split
    · split
      · split
        · exact work_retire s i _ .damaged
        · exact work_freeSlot s i
      · exact work_freeSlot s i
    · exact .refl s

theorem work_checkDeadline (c : ChainIx) : WorkFrame s (checkDeadline s c) := by
  unfold checkDeadline; split
  · split
    · exact work_haltHead s c _ _ .expired
    · exact .refl s
  · exact .refl s

/-- A fold of steps that keep the frame keeps it. -/
theorem work_foldl {β : Type} {f : State → β → State} (h : ∀ s b, WorkFrame s (f s b)) (l : List β) :
    WorkFrame s (l.foldl f s) := by
  induction l generalizing s with
  | nil => exact .refl s
  | cons b l ih => exact (h s b).trans (ih (f s b))

/-- `t` keeps the ports, the queue of commands, the inputs and the free values consumed. -/
structure HostFrame (s t : State) : Prop where
  ports : t.ports = s.ports
  fresh : t.fresh = s.fresh
  pending : t.pending = s.pending
  wires : t.wires = s.wires

namespace HostFrame

variable {s t u : State}

theorem refl (s : State) : HostFrame s s := ⟨rfl, rfl, rfl, rfl⟩

theorem trans (h : HostFrame s t) (k : HostFrame t u) : HostFrame s u :=
  ⟨k.ports.trans h.ports, k.fresh.trans h.fresh, k.pending.trans h.pending, k.wires.trans h.wires⟩

theorem ofWork (h : WorkFrame s t) : HostFrame s t := ⟨h.ports, h.fresh, h.pending, h.wires⟩

end HostFrame

theorem host_lowerLease (e : ResvIx) : HostFrame s (lowerLease s e) := by
  unfold lowerLease; split
  · exact .refl s
  · split
    · exact HostFrame.trans (t := { s with resvs := modAt s.resvs e fun _ => none }) ⟨rfl, rfl, rfl, rfl⟩
        (.ofWork (work_raise _ .lease _))
    · exact ⟨rfl, rfl, rfl, rfl⟩

theorem host_foldl {β : Type} {f : State → β → State} (h : ∀ s b, HostFrame s (f s b)) (l : List β) :
    HostFrame s (l.foldl f s) := by
  induction l generalizing s with
  | nil => exact .refl s
  | cons b l ih => exact (h s b).trans (ih (f s b))

theorem host_applyChange (c : Change) : HostFrame s (applyChange c s) := by
  cases c
  case restart =>
    have h := work_foldl s work_disposeDamaged (List.finRange 128)
    simp only [applyChange]
    generalize (List.finRange 128).foldl disposeDamaged s = u at h ⊢
    exact ⟨h.ports, h.fresh, h.pending, h.wires⟩
  all_goals exact ⟨rfl, rfl, rfl, rfl⟩

theorem host_decideProposal (pr : Proposal) (v : Verdict) : HostFrame s (decideProposal pr v s) := by
  have h : HostFrame s (if v = .adopted then applyChange pr.change s else s) := by
    split
    · exact host_applyChange s _
    · exact .refl s
  exact ⟨h.ports, h.fresh, h.pending, h.wires⟩

theorem host_lowerWindow : HostFrame s (lowerWindow s) := by
  unfold lowerWindow; split
  · exact .refl s
  · dsimp only; split
    · exact host_decideProposal s _ .lapsed
    · exact ⟨rfl, rfl, rfl, rfl⟩

theorem host_turnoverEvent (e : Marks) : HostFrame s (turnoverEvent e s) := by
  unfold turnoverEvent turnoverReactions
  dsimp only
  refine HostFrame.trans ?_ (.ofWork (work_offerBus _))
  refine HostFrame.trans ?_ (host_lowerWindow _)
  refine HostFrame.trans ?_ (host_foldl _ host_lowerLease _)
  refine HostFrame.trans ?_ (.ofWork (work_foldl _ work_checkDeadline _))
  refine HostFrame.trans (t := pendMarks e (advanceSweep s)) ?_ ⟨?_, ?_, ?_, ?_⟩
  · have h := work_pendMarks (advanceSweep s) e
    exact ⟨h.ports, h.fresh, h.pending, h.wires⟩
  all_goals simp

/-- What a turnover taken with the engine idle leaves unchanged (R83, R84). -/
theorem host_turnoverNow : HostFrame s (turnoverNow s) :=
  (HostFrame.ofWork (work_clearMarks s)).trans (host_turnoverEvent (clearMarks s) s.marks)

theorem host_afterExchange (e : Marks) : HostFrame s (afterExchange e s) := by
  unfold afterExchange
  dsimp only
  refine (HostFrame.ofWork (work_drained s)).trans ?_
  split
  · exact host_turnoverEvent _ e
  · exact .ofWork ((work_restoreMarks _ e).trans (work_offerBus _))

/-- What the end of an exchange leaves unchanged (R54). -/
theorem host_endExchange (e : Exchange) (o : Outcome) (ws : List Word) : HostFrame s (endExchange e o ws s) := by
  unfold endExchange
  refine HostFrame.trans ?_ (host_afterExchange _ _)
  refine HostFrame.trans ?_ (.ofWork (work_handOff _ e o ws))
  refine HostFrame.trans ?_ (.ofWork (work_updateTarget _ e o))
  exact ⟨rfl, rfl, rfl, rfl⟩

end Sys2Proof.Machine
end

