-- ==== Sys2Proof/Laws/Ops.lean ====
section
/-! SUPPORT. What each shared operation does to what it is about: causes and marks, slots and their lists, retirement, the
bits of a reply, and the taking of a request. -/

namespace Sys2Proof.Machine

variable (s : State)

/-! ### Causes and marks -/

/-- A raise at an attached port sets the flag there; at a detached port, and at any other port, nothing changes (R135, R137). -/
theorem raise_report (c : Cause) (p q : Port) :
    (raise c p s).reports[q] =
      if q = p ∧ s.attached p = true then { s.reports[q] with pending := s.reports[q].pending ||| c.bit }
      else s.reports[q] := by
  unfold raise
  by_cases ha : s.attached p = true
  · by_cases hq : q = p
    · subst hq; simp [ha]
    · have : q.val ≠ p.val := fun e => hq (Fin.ext e)
      simp [ha, hq, this]
  · simp [ha]

/-- A mark at an attached port is set there; at a detached port, and at any other port, nothing changes (R135, R136). -/
theorem mark_report (d : Deferred) (p q : Port) :
    (mark d p s).reports[q] =
      if q = p ∧ s.attached p = true then { s.reports[q] with marks := s.reports[q].marks ||| d.bit }
      else s.reports[q] := by
  unfold mark
  by_cases ha : s.attached p = true
  · by_cases hq : q = p
    · subst hq; simp [ha]
    · have : q.val ≠ p.val := fun e => hq (Fin.ext e)
      simp [ha, hq, this]
  · simp [ha]

@[simp] theorem mark_chains (d : Deferred) (p : Port) : (mark d p s).chains = s.chains := by unfold mark; split <;> rfl
@[simp] theorem mark_sched (d : Deferred) (p : Port) : (mark d p s).sched = s.sched := by unfold mark; split <;> rfl
@[simp] theorem mark_line (d : Deferred) (p : Port) : (mark d p s).line = s.line := by unfold mark; split <;> rfl

theorem raiseAll_report (c : Cause) (p : Port) :
    (raiseAll c s).reports[p] =
      if s.attached p = true then { s.reports[p] with pending := s.reports[p].pending ||| c.bit } else s.reports[p] := by
  unfold raiseAll
  rw [tab_get]

theorem markAll_report (d : Deferred) (p : Port) :
    (markAll d s).reports[p] =
      if s.attached p = true then { s.reports[p] with marks := s.reports[p].marks ||| d.bit } else s.reports[p] := by
  unfold markAll
  rw [tab_get]

/-! ### Slots -/

theorem record_putRecord (i j : SlotIx) (r : Record) :
    (putRecord i r s).record j = if j = i then some r else s.record j := by
  unfold State.record putRecord
  dsimp only
  rw [modAt_get]
  split <;> rfl

theorem record_freeSlot (i j : SlotIx) : (freeSlot i s).record j = if j = i then none else s.record j := by
  unfold State.record freeSlot
  dsimp only
  rw [modAt_get]
  split <;> rfl

theorem gen_putRecord (i j : SlotIx) (r : Record) : (putRecord i r s).slots[j].gen = s.slots[j].gen := by
  unfold putRecord
  dsimp only
  rw [modAt_get]
  split
  · next h => rw [h]
  · rfl

theorem gen_freeSlot (i j : SlotIx) :
    (freeSlot i s).slots[j].gen = if j = i then s.slots[i].gen + 1 else s.slots[j].gen := by
  unfold freeSlot
  dsimp only
  rw [modAt_get]
  split <;> rfl

@[simp] theorem record_unlist (i j : SlotIx) : (unlist i s).record j = s.record j := by simp [State.record]

@[simp] theorem record_endGrant (j : SlotIx) : (endGrant s).record j = s.record j := rfl

@[simp] theorem record_mark (d : Deferred) (p : Port) (j : SlotIx) : (mark d p s).record j = s.record j := by
  unfold mark; split <;> rfl

@[simp] theorem record_enqueueNote (p : Port) (i j : SlotIx) : (enqueueNote p i s).record j = s.record j := by
  unfold enqueueNote; rw [record_mark]; rfl

/-- A slot after its record's cancel-pending flag is set (R15): untouched when the flag was set before, else the record with the flag
and its code written anew; every other slot stays. -/
theorem slots_setCancelPending (i j : SlotIx) (r : Record) :
    (setCancelPending i r s).slots[j] =
      if j = i ∧ r.cancelPending = false then
        { s.slots[i] with record := some { r with cancelPending := true }, codeMatches := true }
      else s.slots[j] := by
  unfold setCancelPending
  cases h : r.cancelPending
  · simp only [putRecord, Bool.false_eq_true, if_false]
    rw [modAt_get]
    simp
  · simp

/-- The lowest FREE slot is FREE, and every slot below it is held (R4). -/
theorem lowestFree_spec (i : SlotIx) (h : s.lowestFree = some i) :
    s.record i = none ∧ ∀ j : SlotIx, j < i → s.record j ≠ none := by
  unfold State.lowestFree at h
  rw [List.find?_eq_some_iff_getElem] at h
  obtain ⟨hi, k, hk, hki, hbelow⟩ := h
  simp only [List.getElem_finRange] at hki hbelow
  refine ⟨by simpa [State.record, Option.isNone_iff_eq_none] using hi, fun j hj hn => ?_⟩
  have hkv : k = i.val := by rw [← hki]; simp
  have := hbelow j.val (by rw [hkv]; exact hj)
  simp [State.record] at hn
  simp [hn] at this

/-! ### Chains -/

/-- Removing a slot from a chain removes it and keeps the order of the rest (R28). -/
theorem list_remove (i : SlotIx) (ch : Chain) : (ch.remove i).list = ch.list.filter (· != i) := by
  unfold Chain.remove
  split
  · rfl
  · next h =>
    symm
    rw [List.filter_eq_self]
    intro a ha
    simp only [bne_iff_ne, ne_eq]
    intro e
    exact h (e ▸ ha)

theorem list_unlist (i : SlotIx) (c : ChainIx) : (unlist i s).chains[c].list = s.chains[c].list.filter (· != i) := by
  rw [unlist_chains, tab_get, list_remove]

/-! ### Retirement -/

/-- The record of a retired slot (R19): DONE, with its end kind and the sweep of the retirement; other slots keep theirs. -/
theorem record_retire (i j : SlotIx) (r : Record) (k : EndKind) :
    (retire i r k s).record j =
      if j = i then some { r with state := .done, endKind := some k, completionSweep := some s.sweep } else s.record j := by
  unfold retire
  dsimp only
  split <;> simp [record_putRecord, unlist_sweep]

/-- A retired slot leaves every chain, and the rest keep their order (R28). -/
theorem list_retire (i : SlotIx) (r : Record) (k : EndKind) (c : ChainIx) :
    (retire i r k s).chains[c].list = s.chains[c].list.filter (· != i) := by
  unfold retire
  dsimp only
  split
  · rw [enqueueNote, mark_chains]; exact list_unlist s i c
  · exact list_unlist s i c

/-- Retiring a slot with the record it holds. -/
theorem retireSlot_held {i : SlotIx} {r : Record} (k : EndKind) (h : s.record i = some r) : retireSlot i k s = retire i r k s := by
  simp only [retireSlot, h]

theorem retireSlot_free {i : SlotIx} (k : EndKind) (h : s.record i = none) : retireSlot i k s = s := by
  simp only [retireSlot, h]

/-! ### The bits of a reply -/

/-- A byte is read back from its bits. -/
theorem byteOfBits_bitsOf : ∀ b : Byte, byteOfBits (bitsOf b) = b := by decide +kernel

/-- A word is read back from the bits of its two bytes, and the bits behind it are read as they stand. -/
theorem wordsOfBits_word (w : Word) (rest : List Bool) :
    wordsOfBits ((wordBytes w).flatMap bitsOf ++ rest) = w :: wordsOfBits rest := by
  have hb : ∀ (b : Bool) (j : Nat), (if b then (1 : Word) else 0).getLsbD j = (decide (j = 0) && b) := by
    intro b j; cases b <;> simp [BitVec.getLsbD_one]
  have hw : ((List.range 16).map w.getLsbD).foldr (fun b (acc : Word) => (acc <<< 1) ||| (if b then 1 else 0)) 0 = w := by
    refine BitVec.eq_of_getLsbD_eq fun i hi => ?_
    simp only [List.range, List.range.loop, List.map, List.foldr, BitVec.getLsbD_or, BitVec.getLsbD_shiftLeft, hb]
    interval_cases i <;> simp
  simp only [wordBytes, List.flatMap_cons, List.flatMap_nil, bitsOf, List.append_nil, List.cons_append, List.nil_append, wordsOfBits]
  congr 1
  refine Eq.trans ?_ hw
  congr 1
  simp [List.range, List.range.loop]

/-- A reply's words are read back from their bits. -/
theorem wordsOfBits_words (ws : List Word) (rest : List Bool) :
    wordsOfBits ((ws.flatMap wordBytes).flatMap bitsOf ++ rest) = ws ++ wordsOfBits rest := by
  induction ws with
  | nil => rfl
  | cons w ws ih =>
    simp only [List.flatMap_cons, List.flatMap_append, List.append_assoc]
    rw [wordsOfBits_word, ih]
    rfl

/-! ### Requests -/

theorem respond_port_ne {p q : Port} (seq : Byte) (c : ResultCode) (body : List Byte) (h : q ≠ p) :
    (respond p seq c body s).ports[q] = s.ports[q] := by
  unfold respond
  dsimp only
  rw [modAt_get_ne _ _ h]

theorem respond_port_self (p : Port) (seq : Byte) (c : ResultCode) (body : List Byte) :
    (respond p seq c body s).ports[p] =
      { s.ports[p] with
        txn := .answering
        rx := []
        answer := some { idle := (Config.idleBytes s.fresh).val, bytes := responseFrame seq c.code body } } := by
  unfold respond
  dsimp only
  rw [modAt_get_self]

theorem respond_attached (p q : Port) (seq : Byte) (c : ResultCode) (body : List Byte) :
    (respond p seq c body s).attached q = s.attached q := by
  unfold State.attached
  by_cases h : q = p
  · subst h; rw [respond_port_self]
  · rw [respond_port_ne s seq c body h]

/-- A request taken in RECEIVING is carried out and answered (R165, R167). -/
theorem takeRequest_receiving {p : Port} (seq : Byte) (f : State → Reply) (h : s.ports[p].txn = .receiving) :
    takeRequest p seq f s = .next (respond p seq (f s).code (f s).body (f s).state) := if_pos h

/-- Bytes in any other transaction state are ignored (R164). -/
theorem takeRequest_ignored {p : Port} (seq : Byte) (f : State → Reply) (h : s.ports[p].txn ≠ .receiving) :
    takeRequest p seq f s = .next s := if_neg h

/-- A request is always answered by a next state. -/
theorem takeRequest_next (p : Port) (seq : Byte) (f : State → Reply) : ∃ t, takeRequest p seq f s = .next t := by
  unfold takeRequest; split <;> exact ⟨_, rfl⟩

theorem whenAttached_true {p : Port} (f : State → Reply) (h : s.attached p = true) : whenAttached p f s = f s := if_pos h

theorem whenAttached_false {p : Port} (f : State → Reply) (h : s.attached p = false) :
    whenAttached p f s = refuse .detached s := if_neg (by simp [h])

end Sys2Proof.Machine
end

