-- ==== Sys2Proof/Laws/Offer.lean ====
section
/-! SUPPORT. The offers of the bus to the Field Arbiter (R86, R90): what a grant and a halted head do to the chains' states, and that
the offers of one event come to an end before the rounds allowed for them are used up. -/

namespace Sys2Proof.Machine

variable (s : State)

/-- The eligible chains, counted. -/
def State.eligibleCount (s : State) : Nat := (List.finRange 16).countP s.eligible

theorem offerChains_busy (n : Nat) (h : s.mayOffer = false) : offerChains n s = s := by
  cases n
  · rfl
  · simp [offerChains, h]

theorem choice_eligible {c : ChainIx} (h : s.choice = some c) : s.eligible c = true := by
  have key : ∀ l : List ChainIx, firstOfHighest s l = some c → c ∈ l := by
    intro l
    induction l with
    | nil => intro h; cases h
    | cons d l ih =>
      intro h
      unfold firstOfHighest at h
      split at h
      · cases h; exact List.mem_cons_self
      · next e he =>
        split at h
        · cases h; exact List.mem_cons_of_mem _ (ih he)
        · cases h; exact List.mem_cons_self
  exact (List.mem_filter.mp (key _ h)).2

theorem haltHead_chains (c : ChainIx) (i : SlotIx) (r : Record) (why : HaltReason) : (haltHead c i r why s).chains = s.chains := by
  unfold haltHead; rw [mark_chains, putRecord_chains]

theorem haltHead_sched (c : ChainIx) (i : SlotIx) (r : Record) (why : HaltReason) : (haltHead c i r why s).sched = s.sched := by
  unfold haltHead; rw [mark_sched, putRecord_sched]

theorem haltHead_line (c : ChainIx) (i : SlotIx) (r : Record) (why : HaltReason) : (haltHead c i r why s).line = s.line := by
  unfold haltHead; rw [mark_line, putRecord_line]

/-- The records after a head is halted (R22): the head's is HALTED with its reason; the others stay. -/
theorem record_haltHead (c : ChainIx) (i j : SlotIx) (r : Record) (why : HaltReason) :
    (haltHead c i r why s).record j =
      if j = i then some { r with state := .halted, haltReason := .known why } else s.record j := by
  unfold haltHead; rw [record_mark, record_putRecord]

theorem grantTo_list (c d : ChainIx) : (grantTo c s).chains[d].list = s.chains[d].list := by
  unfold grantTo; dsimp only; rw [tab_get]; split
  · rfl
  · split <;> rfl

theorem grantTo_hold (c d : ChainIx) : (grantTo c s).chains[d].hold = s.chains[d].hold := by
  unfold grantTo; dsimp only; rw [tab_get]; split
  · rfl
  · split <;> rfl

theorem head_slot {c : ChainIx} {i : SlotIx} {r : Record} (h : s.head c = some (i, r)) :
    s.chains[c].list.head? = some i ∧ s.record i = some r := by
  unfold State.head at h
  split at h
  · cases h
  · next j t hj =>
    rw [hj]
    cases hr : s.record j with
    | none => rw [hr] at h; cases h
    | some r' => rw [hr] at h; cases h; exact ⟨rfl, hr⟩

/-- Halting the head of chain `c` makes no chain READY, and `c` is READY no more. -/
theorem ready_haltHead {c : ChainIx} {i : SlotIx} {r : Record} (why : HaltReason) (hh : s.head c = some (i, r)) (d : ChainIx)
    (hd : (haltHead c i r why s).chainState d = .ready) : s.chainState d = .ready ∧ d ≠ c := by
  obtain ⟨hl, hr⟩ := head_slot s hh
  unfold State.chainState State.head at hd
  rw [haltHead_chains] at hd
  cases hj : s.chains[d].list with
  | nil => rw [hj] at hd; cases hd
  | cons j t =>
    rw [hj] at hd
    dsimp only at hd
    rw [record_haltHead] at hd
    by_cases e : j = i
    · rw [if_pos e] at hd; cases hd
    · rw [if_neg e] at hd
      refine ⟨?_, ?_⟩
      · unfold State.chainState State.head; rw [hj]; exact hd
      · rintro rfl; rw [hj] at hl; exact e (by simpa using hl)

theorem eligible_iff (c : ChainIx) : s.eligible c = true ↔
    s.chainState c = .ready ∧ s.chains[c].hold = false ∧ s.sched = .running ∧ s.line = .ok := by
  unfold State.eligible; simp [and_assoc]

/-- A try start that leaves the bus free halted a head: no chain became eligible, and the chain tried is eligible no more. -/
theorem tryStart_frees {c : ChainIx} (hc : s.eligible c = true) (hm : (tryStart c (grantTo c s)).mayOffer = true) :
    (∀ d : ChainIx, (tryStart c (grantTo c s)).eligible d = true → s.eligible d = true) ∧
    (tryStart c (grantTo c s)).eligible c = false := by
  have hhead : ∀ d : ChainIx, (grantTo c s).head d = s.head d := fun d => by unfold State.head; rw [grantTo_list]; rfl
  have hst : ∀ d : ChainIx, (grantTo c s).chainState d = s.chainState d := fun d => by unfold State.chainState; rw [hhead]
  cases hh : s.head c with
  | none =>
    rw [eligible_iff] at hc
    unfold State.chainState at hc
    rw [hh] at hc
    cases hc.1
  | some x =>
    obtain ⟨i, r⟩ := x
    unfold tryStart at hm ⊢
    rw [hhead c, hh] at hm ⊢
    dsimp only at hm ⊢
    by_cases h1 : (!(grantTo c s).slots[i].codeMatches) = true
    · rw [if_pos h1] at hm
      have : ∀ t : State, (storeFault t).mayOffer = false := fun t => by
        unfold State.mayOffer; rw [storeFault_sched]; simp
      rw [this] at hm; cases hm
    · rw [if_neg h1] at hm ⊢
      by_cases h2 : (grantTo c s).fenced (chainPort c) r.kind r.target = true
      · rw [if_pos h2] at hm ⊢
        have hready := ready_haltHead (grantTo c s) .fenced ((hhead c).trans hh)
        have hel : ∀ d, (endGrant (haltHead c i r .fenced (grantTo c s))).eligible d = true → s.eligible d = true ∧ d ≠ c := by
          intro d hd
          rw [eligible_iff] at hd
          obtain ⟨a, b, e, f⟩ := hd
          have a' := hready d a
          rw [hst] at a'
          refine ⟨?_, a'.2⟩
          rw [eligible_iff]
          refine ⟨a'.1, ?_, ?_, ?_⟩
          · rw [endGrant_chains, haltHead_chains, grantTo_hold] at b; exact b
          · rw [endGrant_sched, haltHead_sched] at e; exact e
          · rw [endGrant_line, haltHead_line] at f; exact f
        refine ⟨fun d hd => (hel d hd).1, ?_⟩
        cases he : (endGrant (haltHead c i r .fenced (grantTo c s))).eligible c
        · rfl
        · exact absurd rfl (hel c he).2
      · rw [if_neg h2] at hm
        unfold State.mayOffer State.idle startExchange at hm
        cases hm

theorem eligibleCount_lt {c : ChainIx} (hc : s.eligible c = true) (hm : (tryStart c (grantTo c s)).mayOffer = true) :
    (tryStart c (grantTo c s)).eligibleCount < s.eligibleCount := by
  obtain ⟨h1, h2⟩ := tryStart_frees s hc hm
  unfold State.eligibleCount
  generalize tryStart c (grantTo c s) = u at h1 h2
  have key : ∀ l : List ChainIx, l.countP u.eligible ≤ l.countP s.eligible ∧ (c ∈ l → l.countP u.eligible < l.countP s.eligible) := by
    intro l
    induction l with
    | nil => simp
    | cons d l ih =>
      simp only [List.countP_cons, List.mem_cons]
      have : (if u.eligible d = true then 1 else 0) ≤ (if s.eligible d = true then 1 else 0) := by
        split
        · next h => rw [if_pos (h1 d h)]
        · omega
      refine ⟨by omega, ?_⟩
      rintro (rfl | h)
      · rw [if_pos hc, h2]; simp; omega
      · have := ih.2 h; omega
  exact (key _).2 (List.mem_finRange c)

/-- With as many rounds as there are eligible chains, one more changes nothing. -/
theorem offerChains_enough (n : Nat) (h : s.eligibleCount ≤ n) : offerChains (n + 1) s = offerChains n s := by
  induction n generalizing s with
  | zero =>
    unfold offerChains
    split
    · split
      · rfl
      · next c hc =>
        have := choice_eligible s hc
        have h0 : 0 < s.eligibleCount := List.countP_pos_iff.mpr ⟨c, List.mem_finRange c, this⟩
        omega
    · rfl
  | succ n ih =>
    rw [offerChains]
    conv => rhs; rw [offerChains]
    split
    · split
      · rfl
      · next c hc =>
        have he := choice_eligible s hc
        cases hm : (tryStart c (grantTo c s)).mayOffer
        · rw [offerChains_busy _ _ hm, offerChains_busy _ _ hm]
        · have := eligibleCount_lt s he hm
          exact ih _ (by omega)
    · rfl
end Sys2Proof.Machine
end

