-- ==== Sys2Proof/Tests/Slice0.lean ====
section
/-! SUPPORT. Tests: ill-formed commands that the check refuses, the spec's CRC and frame values, one step of each command on a
small state, and for each statement with hypotheses a state and operands that meet them. -/

namespace Sys2Proof.Tests

open Sys2Proof Sys2Proof.Machine

set_option Elab.async false

/-! ### Small states -/

/-- A port attached in session 1 with SEL held, taking a frame. -/
def readyPort : PortIf :=
  { sel := true, prst := false, txn := .receiving, rx := [], answer := none, sdo := some 0, attached := true, session := 1 }

/-- The part after reset with every port ready. -/
def base : State := { State.reset with ports := Vector.replicate 4 readyPort }

/-- The part after reset with every port taking a frame and DETACHED. -/
def detached : State := { State.reset with ports := Vector.replicate 4 { readyPort with attached := false } }

/-- The part after reset with every port in transaction state `t`. -/
def inTxn (t : Txn) : State := { base with ports := Vector.replicate 4 { readyPort with txn := t } }

/-- A READ of 4 registers from 200 of target 17, of P0's chain 0. -/
def sample : Record :=
  { kind := .read, target := 17, span := { register := 200, countM1 := 3 }, data := [], chain := 0, tag := 0x1234, budget := 3,
    deadline := 5, note := true, groupEnd := false, stopShort := false, owner := some 0, state := .queued, postedSweep := 0,
    attempts := 0, budgetLeft := 3, lastOutcome := .absent, haltReason := .absent, cancelPending := false, result := .absent,
    endKind := none, cancelLate := false, completionSweep := none }

/-- `base` with `r` in slot 0. -/
def holding (r : Record) : State :=
  { base with slots := modAt base.slots 0 fun _ => { gen := 0, record := some r, codeMatches := true } }

/-- `base` with `r` in slot 0, head of P0.0. -/
def withHead (r : Record) : State :=
  { holding r with chains := modAt base.chains 0 fun ch => { ch with list := [0] } }

/-- `base` with `r` in slot 0, in P0's report queue. -/
def withNote (r : Record) : State :=
  { holding r with reports := modAt base.reports 0 fun q => { q with queue := [0] } }

/-- A mismatch of slot 0's check code. -/
def upset0 (s : State) : State := { s with slots := modAt s.slots 0 fun sl => { sl with codeMatches := false } }

/-- The READ exchange of `sample`, in a stage. -/
def reading (st : Stage) : Exchange :=
  { origin := .record 0 0, phase := .single, op := .read, target := 17, span := { register := 200, countM1 := 3 }, parity := false,
    send := [], oldValue := none, stage := st, replyStart := false, held := none, count := 0, tx := [], rx := [] }

/-- `sample` ACTIVE with its exchange in a stage, granted. -/
def onBus (st : Stage) : State :=
  { withHead { sample with state := .active } with
    exchange := some (reading st), grant := some { chain := 0, completed := 0 }, phase := .chain }

/-- A poll entry of P0: 2 registers from 64 of target 9, period 4, phase 0. -/
def entry : PollBody :=
  { paused := false, target := 9, span := { register := 64, countM1 := 1 }, period := 4, phase := 0, creator := some 0, missed := 0,
    snap := { words := [0, 0], srcTarget := 9, srcSpan := { register := 64, countM1 := 1 }, valid := false, seq := 0, age := 0,
              failRun := 0, stale := false, last := none } }

/-- `base` with `b` in Poll Plan entry 0. -/
def withPoll (b : PollBody) : State := { base with polls := modAt base.polls 0 fun _ => { edit := 1, body := some b } }

/-- P1's PRIVATE reservation of target 17. -/
def claim17 : Reservation := { owner := 1, base := 17, mask := 63, priv := true, lease := 5, remaining := 5 }

/-- `base` with `a` in Reservation Table entry 0. -/
def withClaim (a : Reservation) : State := { base with resvs := modAt base.resvs 0 fun _ => some a }

/-- Proposal 7 of P0 to change the sweep length to 25 ms, required of P0 and P1. -/
def proposal7 : Proposal :=
  { number := 7, change := .sweepLength 25, proposer := 0, required := 0b0011, confirmed := 0b0001, window := 64 }

/-- `base` with a pending proposal. -/
def withProposal7 (pr : Proposal) : State := { base with proposal := some pr }

/-! ### Reading a step -/

/-- The state a command leads to; the state itself where it stops. -/
def after (c : Instr) (s : State) : State :=
  match exec c s with
  | .next t => t
  | .fault _ => s
  | .refused _ => s

/-- The bytes a port is to shift out after the idle bytes. -/
def sends (s : State) (p : Port) : List Byte := (s.ports[p].answer.map Answer.bytes).getD []

/-- The result code and body of the answer a port is shifting out (section 12.1). -/
def answer (s : State) (p : Port) : Byte × List Byte := ((sends s p).getD 2 0, ((sends s p).drop 4).dropLast)

/-! ### WellFormed refuses -/

/-- A body of 61 bytes fits no frame. -/
theorem test_body_too_long : (Instr.post 0 0 (List.replicate 61 0)).wellFormed = false := by decide +kernel
/-- A frame cut short is not complete. -/
theorem test_frame_incomplete : (Instr.frame 0 [0x03, 0x02]).wellFormed = false := by decide +kernel
/-- A good frame is not one that fails the check. -/
theorem test_frame_good : (Instr.frame 0 (requestFrame 0x02 0x21 [])).wellFormed = false := by decide +kernel
/-- 0x02 is a code of the catalogue. -/
theorem test_unknown_known : (Instr.unknown 0 0x02 0 []).wellFormed = false := by decide +kernel
/-- An unknown request's body fits a frame as well. -/
theorem test_unknown_too_long : (Instr.unknown 0 0x7F 0 (List.replicate 61 0)).wellFormed = false := by decide +kernel
/-- A reply whose count byte gives another number of words. -/
theorem test_reply_words : (Instr.replyFrameReceived ⟨0x44, 2, [7], 0⟩).wellFormed = false := by decide +kernel
/-- A reply whose count byte has a high bit set. -/
theorem test_reply_high_count : (Instr.replyFrameReceived ⟨0x44, 0x20, [], 0⟩).wellFormed = false := by decide +kernel
/-- The longest body, and a reply as long as its count says, are well formed. -/
theorem test_well_formed :
    (Instr.post 0 0 (List.replicate 60 0)).wellFormed = true ∧ (Instr.replyFrameReceived ⟨0x44, 1, [7], 0⟩).wellFormed = true := by
  decide

/-! ### CRCs and frames (R46, R166, R176, section 12) -/

/-- The nine bytes 0x31 to 0x39. -/
def nine : List Byte := [0x31, 0x32, 0x33, 0x34, 0x35, 0x36, 0x37, 0x38, 0x39]

theorem test_crc8 : crc8 nine = 0xF4 := by decide +kernel
theorem test_crc16 : crc16 nine = 0x29B1 := by decide +kernel

/-- STATUS with sequence 0x21: length 3, code 0x02, sequence, CRC-8. -/
theorem test_status_frame :
    (requestFrame 0x02 0x21 []).dropLast = [0x03, 0x02, 0x21] ∧
    frameCommand 2 (requestFrame 0x02 0x21 []) = some (.status 2 0x21 []) := by decide +kernel

/-- A length byte out of range completes the frame by itself; 3 and 63 do not (R165). -/
theorem test_length_bounds :
    frameComplete [2] = true ∧ frameComplete [64] = true ∧ frameComplete [3] = false ∧ frameComplete [63] = false ∧
    frameCommand 0 [2] = some (.frame 0 [2]) := by decide +kernel

/-- The POST body of a READ of 4 registers from 200 of target 17, chain 0, budget 3, NOTE, tag 0xC801, deadline 2. -/
theorem test_post_body :
    parsePost [0x00, 0x2C, 0x11, 0x30, 0xC8, 0xC8, 0x01, 0x02] =
      some { kind := .read, target := 17, span := { register := 200, countM1 := 3 }, data := [], chain := 0, tag := 0xC801,
             budget := 3, deadline := 2, note := true, groupEnd := false, stopShort := false } := by decide +kernel

/-- The ranges of R1 at their bounds: register 4090 with count 6 is in range, with count 7 it is not; a MODIFY has count 1. -/
theorem test_post_ranges :
    (parsePost [0x00, 0, 1, 0x5F, 0xFA, 0, 0, 0]).isSome = true ∧ parsePost [0x00, 0, 1, 0x6F, 0xFA, 0, 0, 0] = none ∧
    (parsePost [0x02, 0, 1, 0x00, 0x0C, 0, 0, 0, 0xFF, 0xF0, 0, 5]).isSome = true ∧
    parsePost [0x02, 0, 1, 0x10, 0x0C, 0, 0, 0, 0xFF, 0xF0, 0, 5] = none ∧
    parsePost [0x00, 0, 64, 0, 0, 0, 0, 0] = none ∧ parsePost [0x00, 0, 0, 0, 0, 0, 0, 0] = none ∧
    (parsePost [0x03, 0, 0, 0, 0, 0, 0, 0, 1, 2]).isSome = true ∧ parsePost [0x03, 0, 1, 0, 0, 0, 0, 0, 1, 2] = none ∧
    parsePost [0x01, 0x80, 1, 0, 0, 0, 0, 0, 1, 2] = none := by decide +kernel

/-- The field frame of that READ: header 0x44, count and register 0x30C8, CRC-16. -/
theorem test_field_frame : (reading .sending).frameBytes.take 3 = [0x44, 0x30, 0xC8] ∧ (reading .sending).frameBits.length = 48 := by
  decide +kernel

/-! ### Power-on, pins, sessions -/

theorem test_power_on :
    after .powerOn (onBus .window) =
      { State.reset with ports := Vector.replicate 4 { readyPort with txn := .spent, attached := false, session := 0 } } := by
  decide +kernel
theorem test_sel_assert :
    let q := (after (.selAssert 1) State.reset).ports[1]
    q.txn = .receiving ∧ q.sdo = some 0 := by decide +kernel
theorem test_sel_release :
    let q := (after (.selRelease 1) base).ports[1]
    q.txn = .waiting ∧ q.sdo = none := by decide +kernel
theorem test_prst_assert :
    let t := after (.prstAssert 0) (withHead sample)
    t.ports[0].txn = .resetHeld ∧ t.ports[0].sdo = some 0 ∧ t.attached 0 = false ∧ t.record 0 = none ∧ t.slots[0].gen = 1 := by
  decide +kernel
theorem test_prst_deassert :
    (after (.prstDeassert 0) (inTxn .resetHeld)).ports[0].txn = .spent := by decide +kernel
theorem test_response_sent : (after (.responseSent 0) (inTxn .answering)).ports[0].txn = .spent := by decide +kernel
theorem test_frame : answer (after (.frame 0 [0x03, 0x02, 0x21, 0x00]) base) 0 = (0x01, []) ∧
    (sends (after (.frame 0 [0x03, 0x02, 0x21, 0x00]) base) 0).getD 1 0 = 0x21 := by decide +kernel
theorem test_unknown : answer (after (.unknown 0 0x7F 9 []) base) 0 = (0x02, []) := by decide +kernel
theorem test_attach :
    answer (after (.attach 0 9 []) detached) 0 = (0x00, [2]) ∧ (after (.attach 0 9 []) detached).attached 0 = true := by
  decide +kernel
theorem test_detach : answer (after (.detach 0 9 []) base) 0 = (0x00, [1]) := by decide +kernel
theorem test_status :
    answer (after (.status 0 9 []) base) 0 = (0x00, [0x44, 0x10, 0, 0, 0, 0, 0, 0, 1, 1, 0, 32, 0, 0, 0]) := by decide +kernel

/-! ### Store and chain requests -/

/-- An accepted POST takes slot 0 and, on the free bus, is tried at once (R10, R86). -/
theorem test_post :
    let t := after (.post 0 9 [0x00, 0x2C, 0x11, 0x30, 0xC8, 0x12, 0x34, 0x05]) base
    answer t 0 = (0x00, [0, 0]) ∧ t.record 0 = some { sample with state := .active } ∧ t.exchange = some (reading .preamble) := by
  decide +kernel
theorem test_peek : answer (after (.peek 0 9 [0, 0]) (withHead sample)) 0 = (0x00, [1, 0, 3, 0, 0]) := by decide +kernel
theorem test_cancel :
    let t := after (.cancel 0 9 [0, 0]) (withHead sample)
    answer t 0 = (0x00, []) ∧ t.chains[0].list = [] ∧ t.reports[0].queue = [0] ∧ t.reports[0].marks = 1 := by decide +kernel
/-- A second CANCEL of an ACTIVE record changes nothing, so a mismatched code is still found by the next PEEK (R15, R11). -/
theorem test_second_cancel :
    let t := after (.cancel 0 9 [0, 0]) (upset0 (holding { sample with state := .active, cancelPending := true }))
    answer t 0 = (0x00, []) ∧ t.slots = (upset0 (holding { sample with state := .active, cancelPending := true })).slots ∧
    (after (.cancel 0 9 [0, 0]) (holding { sample with state := .active })).record 0 =
      some { sample with state := .active, cancelPending := true } := by decide +kernel
theorem test_chain_set : (after (.chainSet 1 9 [3, 2, 8]) base).chains[7] = { Chain.powerOn with priority := 2, burst := 8 } := by
  decide +kernel
theorem test_chain_pause : (after (.chainPause 1 9 [3]) base).chains[7].hold = true := by decide +kernel
theorem test_chain_go : (after (.chainGo 0 9 [0]) (withHead sample)).chainState 0 = .busy := by decide +kernel
theorem test_chain_retry :
    (after (.chainRetry 0 9 [0]) (withHead { sample with state := .halted, budgetLeft := 0 })).record 0 =
      some { sample with state := .active } := by decide +kernel
theorem test_chain_drop :
    ((after (.chainDrop 0 9 [0]) (withHead { sample with state := .halted })).record 0).map Record.endKind =
      some (some .dropped) := by decide +kernel
theorem test_chain_flush :
    answer (after (.chainFlush 0 9 [0]) (withHead sample)) 0 = (0x00, [1, 0]) ∧
    answer (after (.chainFlush 0 9 [0]) (onBus .window)) 0 = (0x00, [0, 1]) := by decide +kernel
theorem test_chain_query :
    answer (after (.chainQuery 0 9 [0, 0]) (withHead sample)) 0 = (0x00, [1, 0, 1, 1, 0, 1, 0, 0, 0]) := by decide +kernel
theorem test_target_query : answer (after (.targetQuery 0 9 [17]) base) 0 = (0x00, [0, 0, 0, 0, 0, 0]) := by decide +kernel

/-! ### Poll and reservation requests -/

theorem test_poll_create :
    let t := after (.pollCreate 0 9 [9, 0x10, 0x40, 4, 0]) base
    answer t 0 = (0x00, [0]) ∧ t.polls = (withPoll entry).polls := by decide +kernel
theorem test_poll_change :
    (after (.pollChange 0 9 [0, 10, 0x10, 0x40, 5, 1]) (withPoll entry)).polls[0] =
      { edit := 2, body := some { entry with target := 10, period := 5, phase := 1 } } := by decide +kernel
theorem test_poll_pause :
    (after (.pollPause 0 9 [0]) { withPoll entry with pollPending := [0] }).polls[0].body = some { entry with paused := true } ∧
    (after (.pollPause 0 9 [0]) { withPoll entry with pollPending := [0] }).pollPending = [] := by decide +kernel
theorem test_poll_resume :
    (after (.pollResume 0 9 [0]) (withPoll { entry with paused := true })).polls[0].body = some entry := by decide +kernel
theorem test_poll_delete : (after (.pollDelete 0 9 [0]) (withPoll entry)).polls[0] = { edit := 2, body := none } := by
  decide +kernel
theorem test_poll_adopt :
    (after (.pollAdopt 0 9 [0]) (withPoll { entry with creator := none })).polls[0].body = some entry := by decide +kernel
theorem test_snap_read :
    answer (after (.snapRead 0 9 [0]) (withPoll entry)) 0 =
      (0x00, [0, 1, 9, 0x10, 0x40, 4, 0, 0, 1, 0, 9, 0x10, 0x40, 0, 0, 0, 0, 0, 0, 0, 0, 0, 0]) := by decide +kernel
theorem test_claim :
    (after (.claim 1 9 [17, 63, 1, 5]) base).resvs = (withClaim claim17).resvs ∧
    answer (after (.claim 0 9 [0x10, 0x30, 0, 5]) (withClaim claim17)) 0 = (0x0A, []) := by decide +kernel
theorem test_renew : (after (.renew 1 9 [0]) (withClaim { claim17 with remaining := 1 })).resvs = (withClaim claim17).resvs := by
  decide +kernel
theorem test_release : (after (.release 1 9 [0]) (withClaim claim17)).resvs[0] = none := by decide +kernel
theorem test_claim_query :
    (answer (after (.claimQuery 0 9 []) (withClaim claim17)) 0).2.take 10 = [0x85, 17, 63, 5, 5, 0, 0, 0, 0, 0] := by decide +kernel

/-! ### Reports, notification, agreement -/

theorem test_fetch :
    let t := after (.fetch 0 9 []) (withNote { sample with state := .done, endKind := some .completed, result := .words [0xABCD] })
    answer t 0 = (0x00, [0, 0, 0, 17, 0x30, 0xC8, 0x12, 0x34, 0, 0, 0, 0, 3, 0, 0, 0, 0, 1, 1, 0xAB, 0xCD]) ∧ t.slots[0].gen = 1 := by
  decide +kernel
theorem test_notify_set : answer (after (.notifySet 0 9 [0x81]) base) 0 = (0x00, [0, 0x81]) := by decide +kernel
theorem test_notify_ack :
    answer (after (.notifyAck 0 9 [0x01])
      { base with reports := modAt base.reports 0 fun q => { q with pending := 0x81, enables := 1 } }) 0 = (0x00, [0x80, 1]) := by
  decide +kernel
theorem test_propose :
    answer (after (.propose 0 9 [1, 25]) base) 0 = (0x00, [1, 0]) ∧
    (after (.propose 0 9 [1, 25]) base).reports[3].pending = 0x20 := by decide +kernel
theorem test_confirm :
    answer (after (.confirm 1 9 [7]) (withProposal7 proposal7)) 0 = (0, []) ∧
    (after (.confirm 1 9 [7]) (withProposal7 proposal7)).nextSweepLength = some 25 := by decide +kernel
theorem test_decline :
    ((after (.decline 1 9 [7]) (withProposal7 proposal7)).decision.map Decision.verdict) = some .declined := by decide +kernel
theorem test_withdraw :
    ((after (.withdraw 0 9 [7]) (withProposal7 proposal7)).decision.map Decision.verdict) = some .withdrawn := by decide +kernel
theorem test_agree_query :
    (answer (after (.agreeQuery 0 9 []) (withProposal7 proposal7)) 0).2.take 11 = [1, 7, 1, 25, 0, 0, 0, 0, 3, 1, 64] := by
  decide +kernel

/-! ### Sweep events -/

/-- An expiry while an exchange is in progress is an overrun (R81). -/
theorem test_sweep_timer_expiry :
    after .sweepTimerExpiry (onBus .window) = { onBus .window with expired := true, overruns := 1, grant := none } := by
  decide +kernel
theorem test_turnover : (after .turnover base).sweep = 1 ∧ (after .turnover base).phase = .chain := by decide +kernel
theorem test_head_deadline_expiry :
    ((after (.headDeadlineExpiry 0) { withHead sample with sweep := 5, sched := .stopped }).record 0).map Record.haltReason =
      some (.known .expired) := by decide +kernel
theorem test_lease_expiry :
    (after (.leaseExpiry 0) (withClaim { claim17 with remaining := 1 })).resvs[0] = none ∧
    (lowerLease (withClaim { claim17 with remaining := 1 }) 0).reports[1].pending = 0x10 := by decide +kernel
theorem test_proposal_lapsed :
    (after .proposalLapsed (withProposal7 { proposal7 with window := 1 })).decision.map Decision.verdict = some .lapsed := by
  decide +kernel
/-- A due entry's exchange starts in the turnover's event (R87). -/
theorem test_poll_due :
    (after (.pollDue 0) { withPoll entry with sweep := 3 }).exchange.map Exchange.origin = some (.poll 0 1) := by decide +kernel

/-! ### Line events -/

theorem test_preamble_end : (after .preambleEnd (onBus .preamble)).exchange.map Exchange.stage = some .sending := by decide +kernel
theorem test_request_frame_sent : (after .requestFrameSent (onBus .sending)).exchange.map Exchange.stage = some .window := by
  decide +kernel
/-- A window that expires spends budget and frees the bus, which is granted again at once (R66, R86). -/
theorem test_reply_window_expiry :
    (after .replyWindowExpiry (onBus .window)).record 0 =
      some { sample with state := .active, attempts := 1, budgetLeft := 2, lastOutcome := .known .noreply } := by decide +kernel
theorem test_reply_start_bit : (after .replyStartBit (onBus .window)).exchange.map Exchange.stage = some .receiving := by
  decide +kernel
theorem test_reply_start : (after .replyStart (onBus .receiving)).exchange.map Exchange.replyStart = some true := by decide +kernel
theorem test_held_outcome :
    (after (.heldOutcome (.countByte 5)) (onBus .receiving)).exchange.map Exchange.held = some (some .overlong) ∧
    (after (.heldOutcome (.countByte 4)) (onBus .receiving)) = onBus .receiving := by decide +kernel
theorem test_discarding_end :
    ((after .discardingEnd { onBus .discarding with exchange := some { reading .discarding with held := some .overlong } }).record
      0).map Record.haltReason = some (.known .overlong) := by decide +kernel

/-- The reply of target 17 with status OK and four words. -/
def reply4 : ReplyFrame :=
  { header := 0x44, count := 4, words := [1, 2, 3, 4], crc := crc16 ([0x44, 4] ++ [(1 : Word), 2, 3, 4].flatMap wordBytes) }

theorem test_reply_frame_received :
    ((after (.replyFrameReceived reply4) (onBus .receiving)).record 0).map Record.result = some (.words [1, 2, 3, 4]) ∧
    (after (.replyFrameReceived reply4) (onBus .receiving)).targets[16].presence = .present := by decide +kernel
theorem test_broadcast_guard_end :
    (after .broadcastGuardEnd
      { withHead { sample with kind := .broadcast, target := 0, state := .active, note := false } with
        exchange := some { reading .guard with phase := .broadcast, op := .write, target := 0 }
        grant := some { chain := 0, completed := 0 } }).record 0 = none := by decide +kernel
theorem test_line_fault :
    let t := after .lineFault (onBus .sending)
    t.line = .fault ∧ t.exchange = none ∧ t.reports[2].pending = 0x80 ∧
    (t.record 0).map Record.lastOutcome = some (.known .line) := by decide +kernel
theorem test_line_ok : (after .lineOk { withHead sample with line := .fault }).chainState 0 = .busy := by decide +kernel

/-! ### Inputs from outside -/

/-- The four bytes of a STATUS frame, clocked in one by one, are that request. -/
theorem test_clocked_frame :
    let s := { base with ports := modAt base.ports 0 fun q => { q with rx := [0x03, 0x02, 0x21] } }
    frameCommand 0 (s.ports[0].rx ++ [crc8 [0x03, 0x02, 0x21]]) = some (.status 0 0x21 []) := by decide +kernel

/-- A mismatched head is found at its try start: the store fault (R26, R158). -/
theorem test_store_fault :
    let t := tryStart 0 (upset0 (withHead sample))
    t.sched = .faulted ∧ (t.record 0).map Record.state = some .damaged ∧ t.chains[0].list = [] ∧ t.reports[1].pending = 0x80 := by
  decide +kernel

/-- An upset during the read phase of a MODIFY: the write phase goes to the target and register that were read (R55). -/
theorem test_upset_modify :
    let r : Record := { sample with kind := .modify, data := [0xFFF0, 5], state := .active }
    let s := upsetSlot 0 { r with target := 9, span := { register := 7, countM1 := 0 } } (holding r)
    let e : Exchange := { reading .receiving with phase := .modifyRead, span := { register := 200, countM1 := 0 } }
    ((recordOutcome e 0 0 .done [0x1234] s).exchange.map fun w => (w.phase, w.target, w.span, w.send)) =
      some (.modifyWrite, 17, { register := 200, countM1 := 0 }, [0x1235]) := by decide +kernel

/-! ### Every statement's hypotheses are met

Each theorem shows states and operands that meet the hypotheses of the statement it names, clause by clause. `serves` and `takes`
hold of every port of `base` and of the states built on it. -/

theorem base_serves (s : State) (h : s.ports = base.ports) (p : Port) : s.serves p := by
  unfold State.serves State.takes State.attached
  rw [h]
  revert p
  decide +kernel

theorem base_takes (s : State) (h : s.ports = base.ports) (p : Port) : s.takes p := (base_serves s h p).1

theorem witness_StepRunsFrontCommand :
    State.reset.pending = [] ∧ State.reset.wires = [] ∧ State.reset.record 127 = none ∧ (holding sample).record 0 = some sample := by
  decide +kernel

theorem witness_PortPins :
    State.reset.ports[(0 : Port)].txn = .waiting ∧ base.ports[(3 : Port)].txn ≠ .waiting ∧ base.ports[(3 : Port)].txn ≠ .resetHeld ∧
    base.ports[(3 : Port)].txn ≠ .answering ∧ (inTxn .resetHeld).ports[(0 : Port)].txn = .resetHeld ∧
    (inTxn .answering).ports[(0 : Port)].txn = .answering ∧ base.attached 0 = true ∧ State.reset.attached 0 = false := by
  decide +kernel

theorem witness_RequestsTakenOrRefused :
    base.takes 0 ∧ frameComplete [2] = true ∧ frameGood [2] = false ∧ requestOf 0x7F 0 0 [] = none ∧
    (frameComplete [3, 0x7F, 0, 0] = true ∧ frameComplete (requestFrame 0x64 0 (List.replicate 60 0)) = true) ∧
    requestOf 0x64 0 0 [] = some (.agreeQuery 0 0 []) ∧ ¬ State.reset.takes 0 ∧ detached.takes 0 ∧ detached.attached 0 = false := by
  unfold State.takes
  decide +kernel

theorem witness_SessionRequests :
    (detached.takes 0 ∧ detached.attached 0 = false) ∧ base.takes 0 ∧ base.attached 0 = true ∧ ([0] : List Byte) ≠ [] := by
  unfold State.takes
  decide +kernel

/-- A slot of P0 in each state, one of P1, a grant, a reservation and a poll entry. -/
theorem witness_SessionEndByBlock :
    (∀ st : RecordState, (holding { sample with state := st }).record 0 = some { sample with state := st }) ∧
    (holding sample).record 0 = some sample ∧ sample.owner ≠ some 1 ∧
    (onBus .window).grant = some { chain := 0, completed := 0 } ∧ base.grant = none ∧
    (withClaim claim17).resvs[(0 : ResvIx)] = some claim17 ∧ base.resvs[(7 : ResvIx)] = none ∧
    base.polls[(47 : PollIx)].body = none ∧ (withPoll entry).polls[(0 : PollIx)].body = some entry := by
  refine ⟨fun st => ?_, by decide +kernel⟩
  cases st <;> rfl

theorem witness_MembershipAtSessionEnd :
    base.proposal = none ∧ (withProposal7 proposal7).proposal = some proposal7 ∧
    proposal7.required.has 2 = false ∧ proposal7.required.has 0 = true ∧ proposal7.required.has 1 = true ∧
    proposal7.proposer = 0 ∧ proposal7.proposer ≠ 1 ∧
    (∀ q : Port, (proposal7.required &&& ~~~ portSet 1 : PortSet).has q = true →
      (proposal7.confirmed &&& ~~~ portSet 1 : PortSet).has q = true) ∧
    proposal7.change.valid .running = true ∧ Change.start.valid .running = false ∧
    ∃ q : Port, ((0b0111 : PortSet) &&& ~~~ portSet 1 : PortSet).has q = true ∧ ((0b0001 : PortSet) &&& ~~~ portSet 1 : PortSet).has q = false := by
  decide +kernel

/-- The POST body of the tests, decoded. -/
def body4 : PostBody :=
  { kind := .read, target := 17, span := { register := 200, countM1 := 3 }, data := [], chain := 0, tag := 0x1234, budget := 3,
    deadline := 5, note := true, groupEnd := false, stopShort := false }

/-- A POST body with the highest budget. -/
theorem witness_PostBodiesInRange : ({ body4 with budget := 7 } : PostBody).budget ≤ 7 ∧ parsePost body4.bytes = some body4 := by
  decide +kernel

/-- `base` with every slot held by P1, and quotas that leave P0 below its own. -/
def fullStore : State :=
  { base with slots := Vector.replicate 128 { gen := 0, record := some { sample with owner := some 1 }, codeMatches := true } }

theorem witness_PostChecksAndEffect :
    (∀ p : Port, base.serves p) ∧ parsePost body4.bytes = some body4 ∧ parsePost [] = none ∧ base.sched ≠ .faulted ∧
    base.fenced 0 .read 17 = false ∧ base.holding 0 < base.quotas[(0 : Port)] ∧ base.record 0 = none ∧
    (withClaim claim17).fenced 0 .read 17 = true ∧
    ({ base with quotas := #v[0, 32, 32, 32] } : State).quotas[(0 : Port)] ≤ base.holding 0 ∧
    (∀ i : SlotIx, fullStore.record i ≠ none) ∧ fullStore.holding 0 < fullStore.quotas[(0 : Port)] ∧
    fullStore.fenced 0 .read 17 = false ∧ (holding sample).record 0 ≠ none ∧ (holding sample).record 1 = none := by
  refine ⟨base_serves base rfl, ?_⟩
  decide +kernel

theorem witness_HandleChecks :
    (∀ p : Port, (holding sample).serves p) ∧ parseHandle [128, 0] = none ∧ parseHandle [127, 255] = some (127, 255) ∧
    (holding sample).record 127 = none ∧ (holding sample).record 0 = some sample ∧ (holding sample).slots[(0 : SlotIx)].gen ≠ 1 ∧
    sample.state ≠ .orphaned ∧ sample.owner ≠ none ∧ sample.owner ≠ some 1 ∧ (holding sample).slots[(0 : SlotIx)].gen = 0 := by
  refine ⟨base_serves _ rfl, ?_⟩
  decide +kernel

theorem witness_PeekAndCancel :
    (∀ r : Record, (holding r).serves 0 ∧ (holding r).record 0 = some r ∧ (holding r).slots[(0 : SlotIx)].codeMatches = true ∧
      (upset0 (holding r)).serves 0 ∧ (upset0 (holding r)).slots[(0 : SlotIx)].codeMatches = false) ∧
    (∀ st : RecordState, ({ sample with state := st } : Record).owner = some 0) ∧
    sample.cancelPending = false ∧ ({ sample with state := .active, cancelPending := true } : Record).cancelPending = true :=
  ⟨fun _ => ⟨base_serves _ rfl 0, rfl, rfl, base_serves _ rfl 0, rfl⟩, fun _ => rfl, rfl, rfl⟩

/-- A record in slot 0, another that a try may have made of it, and a FREE slot. -/
theorem witness_SlotsLeaveTheirLists :
    (withHead sample).record 0 = some sample ∧ (withHead sample).record 0 ≠ none ∧
    { sample with attempts := 1, result := .words [1] } ≠ sample ∧
    ({ sample with attempts := 1, result := .words [1] } : Record).owner = some 0 ∧ (withHead sample).attached 0 = true ∧
    (withHead sample).record 1 = none := by decide +kernel

theorem witness_ChainSettings :
    (∀ p : Port, base.serves p) ∧ parseChainSet [3, 3, 8] = some (3, 3, 8) ∧ parseChainSet [0, 0, 1] = some (0, 0, 1) ∧
    parseChainSet [0, 0, 9] = none ∧ parseChainSet [0, 4, 1] = none ∧ parseChainSet [0, 0, 0] = none ∧
    parseChain [3] = some 3 ∧ parseChain [4] = none ∧ ({ sample with owner := some 3 } : Record).owner = some 3 := by
  refine ⟨base_serves base rfl, ?_⟩
  decide +kernel

theorem witness_ChainRetryAndDrop :
    (∀ r : Record, (withHead r).serves 0) ∧
    (withHead { sample with state := .halted }).head (chainIx 0 0) = some (0, { sample with state := .halted }) ∧
    (withHead sample).chainState (chainIx 0 0) ≠ .halted ∧ base.chainState (chainIx 3 3) ≠ .halted ∧ parseChain [] = none := by
  refine ⟨fun r => base_serves _ rfl 0, ?_⟩
  decide +kernel

theorem witness_ChainFlushRetires :
    (∀ st : Stage, (onBus st).serves 0) ∧ base.head (chainIx 0 0) = none ∧
    (withHead sample).head (chainIx 0 0) = some (0, sample) ∧ sample.state ≠ .active ∧
    (withHead { sample with state := .active, cancelPending := true }).head (chainIx 0 0) =
      some (0, { sample with state := .active, cancelPending := true }) ∧
    (onBus .window).head (chainIx 0 0) = some (0, { sample with state := .active }) ∧ parseChain [0, 0] = none := by
  refine ⟨fun st => base_serves _ rfl 0, ?_⟩
  decide +kernel

theorem witness_ChainAndTargetQueries :
    (withHead sample).serves 0 ∧ parseChainQuery [0, 127] = some (0, 127) ∧
    (∀ i ∈ (withHead sample).chains[chainIx 0 0].list, (withHead sample).slots[i].codeMatches = true) ∧
    (∃ i ∈ (upset0 (withHead sample)).chains[chainIx 0 0].list, (upset0 (withHead sample)).slots[i].codeMatches = false) ∧
    parseTarget [1] = some 0 ∧ parseTarget [63] = some 62 ∧ parseChainQuery [0, 128] = none ∧ parseTarget [0] = none ∧
    parseTarget [64] = none := by
  refine ⟨base_serves _ rfl 0, ?_⟩
  decide +kernel

/-- The definition of `entry`. -/
def def9 : PollDef := { target := 9, span := { register := 64, countM1 := 1 }, period := 4, phase := 0 }

/-- `base` with every Poll Plan entry in use. -/
def fullPlan : State := { base with polls := Vector.replicate 48 { edit := 1, body := some entry } }

theorem witness_PollCreateAndChange :
    (∀ b : PollBody, (withPoll b).serves 0) ∧ parsePollDef [9, 0x10, 0x40, 250, 249] ≠ none ∧
    parsePollDef [9, 0x10, 0x40, 251, 0] = none ∧ parsePollDef [9, 0x10, 0x40, 4, 4] = none ∧
    parsePollDef [9, 0x10, 0x40, 4, 0] = some def9 ∧ (withClaim { claim17 with base := 9 }).withheld 0 9 = true ∧
    base.withheld 0 9 = false ∧ (withPoll entry).sameIdentity def9 none = some 0 ∧ base.sameIdentity def9 none = none ∧
    (∀ i : PollIx, fullPlan.polls[i].body ≠ none) ∧ fullPlan.sameIdentity { def9 with target := 10 } none = none ∧
    base.polls[(0 : PollIx)].body = none ∧ parsePollChange [48, 9, 0x10, 0x40, 4, 0] = none ∧
    parsePollChange [0, 9, 0x10, 0x40, 4, 0] = some (0, def9) ∧ entry.creator = some 0 ∧
    ({ entry with creator := some 1 } : PollBody).creator ≠ some 0 ∧
    (withPoll entry).sameIdentity def9 (some 0) = none ∧ fullPlan.sameIdentity def9 (some 0) = some 1 := by
  refine ⟨fun b => base_serves _ rfl 0, ?_⟩
  decide +kernel

theorem witness_PollEntryRequests :
    (∀ b : PollBody, (withPoll b).serves 0 ∧ (withPoll b).polls[(0 : PollIx)].body = some b) ∧
    base.polls[(47 : PollIx)].body = none ∧ ({ entry with creator := some 1 } : PollBody).creator ≠ some 0 ∧
    entry.creator = some 0 ∧ entry.paused = false ∧ ({ entry with paused := true } : PollBody).paused = true ∧
    entry.creator ≠ none ∧ ({ entry with creator := none } : PollBody).creator = none ∧ parsePollIx [48] = none := by
  refine ⟨fun b => ⟨base_serves _ rfl 0, rfl⟩, ?_⟩
  decide +kernel

theorem witness_SnapshotRead :
    (withPoll entry).serves 0 ∧ parsePollIx [48] = none ∧ parsePollIx [47] = some 47 ∧ base.polls[(47 : PollIx)].body = none ∧
    (withPoll entry).polls[(0 : PollIx)].body = some entry ∧ (withPoll entry).withheld 0 9 = false ∧
    (withClaim { claim17 with base := 9 }).withheld 0 9 = true := by
  refine ⟨base_serves _ rfl 0, ?_⟩
  decide +kernel

theorem witness_PollOutcomes :
    base.polls[(0 : PollIx)].body = none ∧ (withPoll entry).polls[(0 : PollIx)].body = some entry ∧
    (withPoll entry).polls[(0 : PollIx)].edit = 1 ∧ (withPoll entry).polls[(0 : PollIx)].edit ≠ 2 ∧
    entry.paused = false ∧ ({ entry with paused := true } : PollBody).paused = true ∧ Outcome.wait ≠ .line ∧ Outcome.wait ≠ .done ∧
    entry.snap.failRun ≠ 2 ∧ ({ entry.snap with failRun := 2 } : Snapshot).failRun = 2 ∧
    ({ entry with creator := none } : PollBody).creator = none ∧ entry.creator = some 0 := by decide +kernel

/-- `base` with every Reservation Table entry held by P0. -/
def fullClaims : State := { base with resvs := Vector.replicate 8 (some { claim17 with owner := 0 }) }

theorem witness_ClaimAddsEntry :
    (withClaim claim17).serves 0 ∧ parseClaim [17, 63, 1, 0] = none ∧ parseClaim [0, 63, 1, 1] = none ∧
    parseClaim [17, 63, 0, 255] = some (17, 63, false, 255) ∧
    ((withClaim claim17).resvs[(0 : ResvIx)] = some claim17 ∧ claim17.owner ≠ 0 ∧ matches6 17 63 17 = true ∧
      matches6 claim17.base claim17.mask 17 = true) ∧
    (∀ e : ResvIx, base.resvs[e] = none) ∧ (∀ e : ResvIx, fullClaims.resvs[e] = some { claim17 with owner := 0 }) := by
  refine ⟨base_serves _ rfl 0, ?_⟩
  decide +kernel

theorem witness_RenewReleaseQuery :
    (withClaim claim17).serves 1 ∧ (withClaim claim17).serves 0 ∧ parseResvIx [8] = none ∧ parseResvIx [0] = some 0 ∧
    parseResvIx [7] = some 7 ∧ base.resvs[(7 : ResvIx)] = none ∧ (withClaim claim17).resvs[(0 : ResvIx)] = some claim17 ∧
    claim17.owner ≠ 0 ∧ claim17.owner = 1 ∧ ([0] : List Byte) ≠ [] := by
  refine ⟨base_serves _ rfl 1, base_serves _ rfl 0, ?_⟩
  decide +kernel

theorem witness_FetchTakesOldestNote :
    (withNote { sample with state := .done }).serves 0 ∧ base.reports[(0 : Port)].queue = [] ∧
    (withNote { sample with state := .done }).reports[(0 : Port)].queue = [0] ∧
    (withNote { sample with state := .done }).record 0 = some { sample with state := .done } ∧
    (withNote { sample with state := .done }).slots[(0 : SlotIx)].codeMatches = true ∧
    (upset0 (withNote { sample with state := .done })).slots[(0 : SlotIx)].codeMatches = false := by
  refine ⟨base_serves _ rfl 0, ?_⟩
  decide +kernel

theorem witness_NotifyFlags :
    base.serves 0 ∧ ([] : List Byte).length ≠ 1 ∧ base.attached 0 = true ∧ detached.attached 3 = false ∧ (3 : Port) ≠ 0 :=
  ⟨base_serves _ rfl 0, by decide +kernel⟩

theorem witness_ProposeMakesProposal :
    base.serves 0 ∧ parseChange [1, 101] = none ∧ parseChange [1, 100] = some (.sweepLength 100) ∧
    (withProposal7 proposal7).proposal ≠ none ∧ base.proposal = none ∧ Change.start.valid base.sched = false ∧
    Change.stop.valid base.sched = true ∧ (∃ q : Port, q ≠ 0 ∧ base.attached q = true) ∧
    (∀ q : Port, q ≠ 2 →
      ({ base with ports := modAt (Vector.replicate 4 { readyPort with attached := false }) 2 fun _ => readyPort } : State).attached
        q = false) := by
  refine ⟨base_serves _ rfl 0, ?_⟩
  decide +kernel

theorem witness_ConfirmDecides :
    (∀ pr : Proposal, (withProposal7 pr).serves 0 ∧ (withProposal7 pr).serves 1 ∧ (withProposal7 pr).serves 2 ∧
      (withProposal7 pr).proposal = some pr) ∧
    ([] : List Byte).length ≠ 1 ∧ proposal7.number ≠ 8 ∧ proposal7.number = 7 ∧ proposal7.required.has 2 = false ∧
    (proposal7.required.has 0 = true ∧ proposal7.confirmed.has 0 = true) ∧
    (proposal7.required.has 1 = true ∧ proposal7.confirmed.has 1 = false) ∧
    (∀ q : Port, proposal7.required.has q = true → (proposal7.confirmed ||| portSet 1 : PortSet).has q = true) ∧
    (∃ q : Port, (0b0111 : PortSet).has q = true ∧ ((0b0001 : PortSet) ||| portSet 1 : PortSet).has q = false) ∧
    proposal7.change.valid .running = true ∧ Change.stop.valid .faulted = false := by
  refine ⟨fun pr => ⟨base_serves _ rfl 0, base_serves _ rfl 1, base_serves _ rfl 2, rfl⟩, ?_⟩
  decide +kernel

theorem witness_DeclineWithdrawQuery :
    (withProposal7 proposal7).serves 0 ∧ (withProposal7 proposal7).serves 1 ∧ (withProposal7 proposal7).serves 2 ∧
    (withProposal7 proposal7).proposal = some proposal7 ∧ proposal7.number = 7 ∧ proposal7.number ≠ 8 ∧
    proposal7.required.has 2 = false ∧ proposal7.required.has 1 = true ∧ proposal7.proposer ≠ 1 ∧ proposal7.proposer = 0 := by
  refine ⟨base_serves _ rfl 0, base_serves _ rfl 1, base_serves _ rfl 2, ?_⟩
  decide +kernel

theorem witness_DecisionsApplied : base.exchange = none ∧ (onBus .window).exchange ≠ none := by decide +kernel

/-- `base` with slots 0 and 2 of P0 DAMAGED. -/
def twoDamaged : State :=
  let bad : Slot := { gen := 0, record := some { sample with state := .damaged }, codeMatches := true }
  { base with slots := modAt (modAt base.slots 2 fun _ => bad) 0 fun _ => bad }

theorem twoDamaged_lists : twoDamaged.ListsSound := by
  have hr : ∀ i : SlotIx, twoDamaged.record i = if i = 0 ∨ i = 2 then some { sample with state := .damaged } else none := by
    decide +kernel
  have hl : ∀ c : ChainIx, twoDamaged.chains[c].list = [] := by decide +kernel
  have hq : ∀ p : Port, twoDamaged.reports[p].queue = [] := by decide +kernel
  have of : ∀ (i : SlotIx) (r : Record), twoDamaged.record i = some r → r = { sample with state := .damaged } := fun i r h => by
    rw [hr] at h
    split at h <;> cases h
    rfl
  refine ⟨fun c => ?_, fun c i h => ?_, fun c i h => ?_, fun i r h e => ?_, fun p => ?_, fun p i h => ?_, fun i r h e => ?_,
    fun i r h e => ?_, fun i r h e => ?_⟩
  · rw [hl]; exact List.nodup_nil
  · rw [hl] at h; cases h
  · rw [hl] at h; cases h
  · cases of i r h; rcases e with e | e | e <;> cases e
  · rw [hq]; exact List.nodup_nil
  · rw [hq] at h; cases h
  · cases of i r h; cases e
  · cases of i r h; rcases e with e | e <;> cases e
  · cases of i r h; cases e

/-- RESTART puts both at the tail of P0's queue, in ascending order (R161). -/
theorem test_restart : (applyChange .restart twoDamaged).reports[0].queue = [0, 2] := by decide +kernel

theorem witness_RestartDisposesDamaged :
    twoDamaged.ListsSound ∧ base.record 127 = none ∧ (holding sample).record 0 = some sample ∧ sample.state ≠ .damaged ∧
    (holding { sample with state := .damaged, owner := none }).record 0 = some { sample with state := .damaged, owner := none } ∧
    (holding { sample with state := .damaged }).record 0 = some { sample with state := .damaged } ∧
    (holding { sample with state := .damaged }).attached 0 = true := ⟨twoDamaged_lists, by decide +kernel⟩

theorem witness_TimerExpiry :
    base.exchange = none ∧ (onBus .window).exchange ≠ none ∧ (onBus .window).expired = false ∧
    ({ onBus .window with expired := true } : State).expired = true := by decide +kernel

theorem witness_TurnoverEvent :
    base.exchange = none ∧
    ((withHead sample).head 0 = some (0, sample) ∧ sample.state = .queued ∧ sample.deadline ≠ 0 ∧
      sample.deadline < ((5 : Word) + 1 - sample.postedSweep).toNat) ∧
    ((withClaim { claim17 with remaining := 1 }).resvs[(0 : ResvIx)] = some { claim17 with remaining := 1 }) ∧
    (withProposal7 { proposal7 with window := 1 }).proposal = some { proposal7 with window := 1 } ∧
    ((withPoll entry).polls[(0 : PollIx)].body = some entry ∧ entry.paused = false ∧
      ((3 : Word) + 1).toNat % entry.period = entry.phase) := by decide +kernel

theorem witness_TurnoverCounts :
    ((withHead sample).head 0 = some (0, sample) ∧ sample.state = .queued ∧ sample.deadline ≠ 0 ∧
      sample.deadline < ((6 : Word) - sample.postedSweep).toNat ∧ ((5 : Word) - sample.postedSweep).toNat ≤ sample.deadline) ∧
    base.resvs[(0 : ResvIx)] = none ∧ (withClaim claim17).resvs[(0 : ResvIx)] = some claim17 ∧ 1 < claim17.remaining ∧
    ({ claim17 with remaining := 1 } : Reservation).remaining = 1 ∧ base.proposal = none ∧
    (withProposal7 proposal7).proposal = some proposal7 ∧ 1 < proposal7.window ∧
    ({ proposal7 with window := 1 } : Proposal).window = 1 := by decide +kernel

/-- `base` in a poll phase, with entry 0 pending, and its target in a state. -/
def polling (t : Target) : State :=
  { withPoll entry with
    phase := .poll, pollPending := [0], sweep := 20, targets := modAt base.targets 8 fun _ => t }

/-- A SILENT target's entry skipped and the phase ended; and an entry at the front polled. -/
theorem test_poll_phase :
    (offerBus (polling { Target.powerOn with presence := .silent, lastSweep := some 5 })).phase = .chain ∧
    (offerBus (polling { Target.powerOn with presence := .silent, lastSweep := some 4 })).exchange.map Exchange.origin =
      some (.poll 0 1) := by decide +kernel

theorem witness_PollsFallDue :
    (let s := polling { Target.powerOn with presence := .silent, lastSweep := some 5 }
     s.polls[(0 : PollIx)].body = some entry ∧ entry.target.toNat = (8 : Fin 63).val + 1 ∧ s.mayOffer = true ∧ s.phase = .poll ∧
     s.pollsRun < s.pollWindow ∧ s.pollPending = [0] ∧ s.skips 0 = true) ∧
    (let s := polling Target.powerOn
     s.mayOffer = true ∧ s.phase = .poll ∧ s.pollsRun < s.pollWindow ∧ s.pollPending = [] ++ 0 :: [] ∧ s.skips 0 = false ∧
     s.polls[(0 : PollIx)].body = some entry) ∧
    (let s : State := { polling Target.powerOn with pollsRun := 16 }
     s.phase = .poll ∧ s.exchange = none ∧ s.pollWindow ≤ s.pollsRun) ∧
    (¬ (polling Target.powerOn).pollWindow ≤ (polling Target.powerOn).pollsRun ∧ (polling Target.powerOn).pollPending ≠ []) ∧
    base.polls[(0 : PollIx)].body = none ∧ (withPoll entry).polls[(0 : PollIx)].body = some entry ∧ entry.paused = false ∧
    (withPoll entry).sweep.toNat % entry.period = entry.phase ∧ (0 : PollIx) ∉ (withPoll entry).pollPending ∧
    (0 : PollIx) ∈ ({ withPoll entry with pollPending := [0] } : State).pollPending := by decide +kernel

/-- A fenced head is HALTED and the bus goes on to the next chain in the same event (R90). -/
theorem test_offer_goes_on :
    let s : State :=
      { withClaim { claim17 with priv := true } with
        slots := modAt (modAt base.slots 0 fun _ => { gen := 0, record := some sample, codeMatches := true }) 1 fun _ =>
          { gen := 0, record := some { sample with chain := 1, target := 9 }, codeMatches := true }
        chains := modAt (modAt base.chains 0 fun ch => { ch with list := [0] }) 1 fun ch => { ch with list := [1] } }
    s.choice = some 0 ∧ (offerBus s).chainState 0 = .halted ∧ (offerBus s).chainState 1 = .busy := by decide +kernel

theorem witness_ArbiterGrants :
    ((withHead sample).mayOffer = true ∧ (withHead sample).phase = .chain) ∧ (base.mayOffer = true ∧ base.phase = .chain) ∧
    (onBus .window).mayOffer = false ∧
    (withHead sample).eligible 0 = true ∧ (withHead sample).eligible 15 = false ∧ (withHead sample).choice = some 0 ∧
    base.choice = none ∧ (15 : ChainIx) ≠ 0 ∧ base.chains[(15 : ChainIx)].list = [] ∧
    (∀ st : RecordState, (withHead { sample with state := st }).chains[(0 : ChainIx)].list = 0 :: [] ∧
      (withHead { sample with state := st }).record 0 = some { sample with state := st }) := by
  refine ⟨by decide +kernel, by decide +kernel, by decide +kernel, by decide +kernel, by decide +kernel, by decide +kernel,
    by decide +kernel, by decide +kernel, by decide +kernel, fun st => by cases st <;> exact ⟨rfl, rfl⟩⟩

theorem witness_TryStartByChecks :
    (∀ k : Kind, (withHead { sample with kind := k }).head 0 = some (0, { sample with kind := k })) ∧
    (withHead sample).slots[(0 : SlotIx)].codeMatches = true ∧ (upset0 (withHead sample)).slots[(0 : SlotIx)].codeMatches = false ∧
    (upset0 (withHead sample)).head 0 = some (0, sample) ∧ (withHead sample).fenced (chainPort 0) .broadcast 0 = false ∧
    (withClaim claim17).fenced (chainPort 0) .write 17 = true ∧ (1 : BitVec 6).toNat = (0 : Fin 63).val + 1 ∧
    (63 : BitVec 6).toNat = (62 : Fin 63).val + 1 := by
  refine ⟨fun k => by cases k <;> rfl, ?_⟩
  decide +kernel

theorem witness_ExchangeCourse :
    (∀ st : Stage, (onBus st).exchange = some (reading st) ∧ (reading st).stage = st) ∧ (reading .receiving).replyStart = false ∧
    (onBus .preamble).line = .ok ∧ (onBus .preamble).run < 63 ∧ ({ onBus .guard with run := 63 } : State).run = 63 ∧
    ({ reading .preamble with count := 6 } : Exchange).count < 7 ∧ ({ reading .preamble with count := 7 } : Exchange).count = 7 ∧
    ({ reading .window with count := 22 } : Exchange).count < 23 ∧ ({ reading .guard with count := 23 } : Exchange).count = 23 ∧
    ({ reading .sending with tx := [true, false] } : Exchange).tx = true :: false :: [] ∧
    ({ reading .sending with tx := [false] } : Exchange).tx = [false] ∧
    (0x20 : Byte).extractLsb' 5 3 ≠ 0 ∧ (0x05 : Byte).extractLsb' 5 3 = 0 ∧ (reading .receiving).expected < replyCount 0x05 ∧
    ((0x04 : Byte).extractLsb' 5 3 = 0 ∧ replyCount 0x04 ≤ (reading .receiving).expected) ∧
    ({ reading .receiving with replyStart := true } : Exchange).replyStart = true ∧
    ({ reading .discarding with held := some .corrupt } : Exchange).held = some .corrupt := by
  refine ⟨fun st => ⟨rfl, rfl⟩, ?_⟩
  decide +kernel

/-- A reply of one header byte and some words, with its CRC right. -/
def replyWith (header : Byte) (words : List Word) : ReplyFrame :=
  { header := header, count := byte words.length, words := words,
    crc := crc16 (header :: byte words.length :: words.flatMap wordBytes) }

/-- One reply for each row of R52, and a write's and a MODIFY read's exchange. -/
theorem witness_ReplyClassified :
    let e := reading .receiving
    let right (f : ReplyFrame) : Prop := crc16 (f.header :: f.count :: f.words.flatMap wordBytes) = f.crc
    ((onBus .receiving).exchange = some e ∧ e.stage = .receiving ∧ reply4.count.extractLsb' 5 3 = 0 ∧
      reply4.words.length = replyCount reply4.count ∧ reply4.words.length ≤ e.expected ∧ (e.phase = .modifyRead → e.op = .read)) ∧
    ¬ right { reply4 with crc := 0 } ∧ right reply4 ∧ reply4.header.extractLsb' 2 6 = e.target ∧
    (right (replyWith 0x48 []) ∧ (replyWith 0x48 []).header.extractLsb' 2 6 ≠ e.target) ∧
    (∀ st : Fin 4, right (replyWith (0x44 + BitVec.ofNat 8 st.val) []) ∧
      (replyWith (0x44 + BitVec.ofNat 8 st.val) []).header.extractLsb' 2 6 = e.target ∧
      ((replyWith (0x44 + BitVec.ofNat 8 st.val) []).header.extractLsb' 0 2).toNat = st.val) ∧
    reply4.words.length = e.span.count ∧ (replyWith 0x44 [1]).words.length < e.span.count ∧ e.phase ≠ .modifyRead ∧
    (let m : Exchange := { e with phase := .modifyRead, span := { register := 200, countM1 := 0 } }
     (replyWith 0x44 [1]).words.length ≤ m.expected ∧ (replyWith 0x44 [1]).words.length = m.span.count) ∧
    ({ e with op := .write } : Exchange).op = .write ∧ (replyWith 0x44 []).words.length ≤ ({ e with op := .write } : Exchange).expected := by
  decide +kernel

/-- The READ exchange of `sample` with the bits of its reply taken so far. -/
def receiving (rx : List Bool) : State := { onBus .receiving with exchange := some { reading .receiving with rx := rx } }

/-- A bit for each clause about the bits of a reply: the wrong and the right second bit of the delimiter, its last, the first of the
header, the last of a count byte that fails and of one that does not, the first after it, and the last of the reply. -/
theorem witness_replyBits :
    (∀ rx : List Bool, (receiving rx).exchange = some { reading .receiving with rx := rx } ∧ (receiving rx).line = .ok) ∧
    (reading .receiving).stage = .receiving ∧
    delimiter = [false] ++ (!false) :: [true, true, true, true, true, false] ∧
    delimiter = ([false] ++ [true]) ++ [true, true, true, true, true, false] ∧ delimiter.dropLast ++ [false] = delimiter ∧
    (let head : List Bool := delimiter ++ bitsOf 0x44
     delimiter ++ [false] = delimiter ++ [false] ∧ [false].length < 16 ∧
     (head ++ (bitsOf 0x05).dropLast ++ [true] = delimiter ++ bitsOf 0x44 ++ bitsOf 0x05 ∧
       (reading .receiving).expected < replyCount 0x05) ∧
     (head ++ (bitsOf 0x04).dropLast ++ [false] = delimiter ++ bitsOf 0x44 ++ bitsOf 0x04 ∧
       ¬ ((0x04 : Byte).extractLsb' 5 3 ≠ 0 ∨ (reading .receiving).expected < replyCount 0x04)) ∧
     [true].length ≠ 16 * replyCount 0x04 + 16) ∧
    (let bits := delimiter ++ (reply4.header :: reply4.count :: reply4.words.flatMap wordBytes ++ wordBytes reply4.crc).flatMap bitsOf
     reply4.words.length = replyCount reply4.count ∧ bits.dropLast ++ [bits.getLastD false] = bits) := by
  refine ⟨fun rx => ⟨rfl, rfl⟩, ?_⟩
  decide +kernel

/-- The wrong second bit of the delimiter is held as CORRUPT in DISCARDING, and the last bit of the reply ends the exchange (R50). -/
theorem test_reply_bits :
    (let bits := delimiter ++ (reply4.header :: reply4.count :: reply4.words.flatMap wordBytes ++ wordBytes reply4.crc).flatMap bitsOf
     (match step { receiving bits.dropLast with wires := [.bit (.driven (bits.getLastD false))] } with
      | .next t => t.record 0 |>.map fun r => (r.state, r.result)
      | _ => none) = some (.done, .words reply4.words)) ∧
    (match step { receiving [false] with wires := [.bit (.driven false)] } with
     | .next t => t.exchange.map fun e => (e.stage, e.held)
     | _ => none) = some (.discarding, some .corrupt) := by decide +kernel

theorem witness_TargetTableUpdate :
    (reading .window).target.toNat = (16 : Fin 63).val + 1 ∧ (63 : BitVec 6).toNat = (62 : Fin 63).val + 1 ∧
    Outcome.noreply ≠ .line ∧ ({ reading .guard with target := 0 } : Exchange).target = 0 ∧
    ((reading .window).replyStart = false ∧
      ({ base with targets := Vector.replicate 63 { Target.powerOn with run := 3 } } : State).targets[(16 : Fin 63)].run = 3) ∧
    base.targets[(16 : Fin 63)].run ≠ 3 := by decide +kernel

theorem witness_LineMonitor :
    (base.line = .ok ∧ base.exchange = none ∧ base.run < 63) ∧ (onBus .guard).exchange = some (reading .guard) ∧
    (let f : State := { base with line := .fault, run := 64 }
     f.line = .fault ∧ f.exchange = none ∧ f.releasedCount < 255) ∧
    ({ base with run := 63 } : State).run = 63 ∧ ({ base with releasedCount := 255 } : State).releasedCount = 255 := by
  decide +kernel

theorem witness_TryEndsThatKeepTheHead :
    sample.cancelPending = false ∧ ({ sample with budget := 0 } : Record).budget = 0 ∧ sample.budget ≠ 0 ∧ 1 < sample.budgetLeft ∧
    ({ sample with budgetLeft := 1 } : Record).budgetLeft = 1 := by decide

theorem witness_CompletionsAndCancels :
    ({ sample with cancelPending := true } : Record).cancelPending = true ∧ sample.cancelPending = false ∧ sample.cancelLate = false ∧
    ({ sample with note := false } : Record).note = false ∧ sample.note = true ∧ sample.stopShort = false ∧
    ({ sample with groupEnd := true } : Record).groupEnd = true ∧ ({ sample with stopShort := true } : Record).stopShort = true ∧
    sample.groupEnd = false ∧
    (let skips (r : Record) (o : Outcome) : Prop := o = .short ∧ r.stopShort = true ∧ r.groupEnd = false
     skips { sample with stopShort := true } .short ∧ ¬ skips sample .short) ∧
    (let s : State :=
       { base with slots := modAt (holding sample).slots 1 fun _ =>
           { gen := 0, record := some { sample with groupEnd := true }, codeMatches := true } }
     (∀ j ∈ ([0] : List SlotIx), s.record j = some sample) ∧ s.record 1 = some { sample with groupEnd := true } ∧
     s.groupRest [0, 1, 2] = [0, 1]) := by decide +kernel

/-- A grant with another head to try, under a burst of 2; and one whose burst of 1 is done. -/
theorem witness_BurstWithinGrant :
    let s : State :=
      { withHead sample with
        grant := some { chain := 0, completed := 0 }, chains := modAt (withHead sample).chains 0 fun c => { c with burst := 2 } }
    s.grant = some { chain := 0, completed := 0 } ∧
    (0 + 1 < s.chains[(0 : ChainIx)].burst ∧ s.chainState 0 = .ready ∧ s.chains[(0 : ChainIx)].hold = false ∧ s.expired = false ∧
      s.sched = .running ∧ s.line = .ok) ∧
    ¬ 0 + 1 < (withHead sample).chains[(0 : ChainIx)].burst ∧
    (∀ g : Grant, base.grant = some g → g.chain ≠ 0) ∧ (∀ g : Grant, s.grant = some g → g.chain ≠ 15) := by
  refine ⟨by decide +kernel, by decide +kernel, by decide +kernel, fun g h => ?_, fun g h => ?_⟩
  · cases h
  · cases h; decide

/-- The ends of an exchange under an expired timer, of one that is not, and of a MODIFY's read phase under an expired timer, which
starts the write phase; and results of the three kinds. -/
theorem witness_endOfExchange :
    let r : Record := { sample with kind := .modify, data := [0xFFF0, 5], state := .active }
    let e : Exchange := { reading .receiving with phase := .modifyRead, span := { register := 200, countM1 := 0 } }
    let ended (e : Exchange) (s : State) : State :=
      drained (handOff e .done [0x1234] (updateTarget e .done { clearMarks s with exchange := none }))
    ((ended (reading .receiving) { onBus .receiving with expired := true }).expired = true ∧
      (ended (reading .receiving) { onBus .receiving with expired := true }).exchange = none) ∧
    (ended (reading .receiving) (onBus .receiving)).expired = false ∧
    (ended e { withHead r with exchange := some e, expired := true }).exchange ≠ none ∧
    (ended (reading .receiving) { onBus .receiving with sched := .draining }).sched = .stopped ∧
    ((reading .receiving).phase = .single ∧ (reading .receiving).op = .read) ∧
    (let w : Exchange := { e with phase := .modifyWrite, op := .write, oldValue := some 1, send := [2] }
     w.phase = .modifyWrite ∧ w.oldValue = some 1 ∧ w.send = [2]) ∧ e.phase ≠ .single ∧ e.phase ≠ .modifyWrite := by
  decide +kernel

theorem witness_OutcomeHandedOn :
    let r : Record := { sample with kind := .modify, data := [0xFFF0, 5], state := .active }
    r.data = [0xFFF0, 5] ∧ r.cancelPending = false ∧ ({ r with cancelPending := true } : Record).cancelPending = true ∧
    base.sched ≠ .faulted ∧ base.fenced (chainPort r.home) r.kind r.target = false ∧
    (withClaim claim17).fenced (chainPort r.home) r.kind r.target = true ∧
    (holding r).record 0 = some r ∧ (holding r).record 1 = none ∧ (holding r).slots[(0 : SlotIx)].gen = 0 ∧
    (holding r).slots[(0 : SlotIx)].gen ≠ 1 ∧
    ({ reading .receiving with phase := .modifyRead } : Exchange).phase = .modifyRead ∧ (reading .receiving).phase ≠ .modifyRead := by
  decide +kernel

theorem witness_FrameRoundTrip :
    (Instr.status 2 0x21 []).wellFormed = true ∧
    frameOf (.status 2 0x21 []) = some (2, requestFrame 0x02 0x21 []) ∧
    (Instr.frame 0 [2]).wellFormed = true ∧ frameOf (.frame 0 [2]) = some (0, [2]) ∧
    (Instr.unknown 0 0x7F 0 []).wellFormed = true ∧ requestOf 0x02 2 0x21 [] = some (.status 2 0x21 []) ∧
    requestOf 0x7F 0 0 [] = none := by decide +kernel

theorem witness_LastByteTakesTheRequest :
    (let q (a : Answer) : State := { base with ports := Vector.replicate 4 { readyPort with txn := .answering, answer := some a } }
     (q ⟨8, [0x5A, 1]⟩).ports[(0 : Port)].sel = true ∧ (q ⟨8, [0x5A, 1]⟩).ports[(0 : Port)].txn = .answering ∧
     (q ⟨8, [0x5A, 1]⟩).ports[(0 : Port)].answer = some { idle := 7 + 1, bytes := [0x5A, 1] } ∧
     (q ⟨0, [0x5A, 1]⟩).ports[(0 : Port)].answer = some { idle := 0, bytes := 0x5A :: [1] } ∧
     (q ⟨0, [1]⟩).ports[(0 : Port)].answer = some { idle := 0, bytes := [1] }) ∧
    (inTxn .spent).ports[(3 : Port)].sel = true ∧ (inTxn .spent).ports[(3 : Port)].txn = .spent ∧
    (inTxn .resetHeld).ports[(0 : Port)].txn = .resetHeld ∧ State.reset.ports[(0 : Port)].sel = false ∧
    base.takes 0 ∧ base.ports[(0 : Port)].sel = true ∧ frameComplete (base.ports[(0 : Port)].rx ++ [3]) = false ∧
    frameCommand 0 (base.ports[(0 : Port)].rx ++ [2]) = some (.frame 0 [2]) := by
  unfold State.takes
  decide +kernel

/-- The part after reset with SEL of P0 about to be asserted. -/
def start : State := { State.reset with pending := [.selAssert 0] }

theorem start_lists : start.ListsSound := by
  have hr : ∀ i : SlotIx, start.record i = none := by decide +kernel
  have hl : ∀ c : ChainIx, start.chains[c].list = [] := by decide +kernel
  have hq : ∀ p : Port, start.reports[p].queue = [] := by decide +kernel
  refine ⟨fun c => ?_, fun c i h => ?_, fun c i h => ?_, fun i r h => ?_, fun p => ?_, fun p i h => ?_, fun i r h => ?_,
    fun i r h => ?_, fun i r h => ?_⟩
  · rw [hl]; exact List.nodup_nil
  · rw [hl] at h; cases h
  · rw [hl] at h; cases h
  · rw [hr] at h; cases h
  · rw [hq]; exact List.nodup_nil
  · rw [hq] at h; cases h
  · rw [hr] at h; cases h
  · rw [hr] at h; cases h
  · rw [hr] at h; cases h

theorem start_plan : start.PlanSound := by
  have hb : ∀ i : PollIx, start.polls[i].body = none := by decide +kernel
  refine ⟨fun i j b d h => ?_, List.nodup_nil, fun i h => ?_, fun e i edit h => ?_⟩
  · rw [hb] at h; cases h
  · cases h
  · cases h

theorem start_gates : start.GatesSound :=
  ⟨fun h => (by cases h), fun h => (by cases h), fun h => (by cases h), fun g h => (by cases h), fun h => (by cases h)⟩

theorem start_steps : ∃ t : State, step start = .next t ∧ t.ports[(0 : Port)].txn = .receiving := ⟨_, rfl, by decide +kernel⟩

theorem witness_PollPlanStaysSound : start.PlanSound ∧ ∃ t : State, step start = .next t := ⟨start_plan, _, rfl⟩

theorem witness_ReservationsStayApart :
    (withClaim claim17).ClaimsSound ∧ ∃ t : State, step (withClaim claim17) = .next t := by
  have hb : ∀ e : ResvIx, (withClaim claim17).resvs[e] = if e = 0 then some claim17 else none := by decide +kernel
  refine ⟨⟨fun e f a b h g ne => ?_, fun e a h => ?_⟩, _, rfl⟩
  · rw [hb] at h g
    split at h
    · split at g
      · cases h; cases g; exact absurd rfl ne
      · cases g
    · cases h
  · rw [hb] at h
    split at h
    · cases h; decide
    · cases h

theorem witness_DetachedPortsHoldNothing :
    start.ListsSound ∧ start.SessionsSound ∧ ∃ t : State, step start = .next t := by
  have hr : ∀ i : SlotIx, start.record i = none := by decide +kernel
  have hb : ∀ e : ResvIx, start.resvs[e] = none := by decide +kernel
  have hp : ∀ i : PollIx, start.polls[i].body = none := by decide +kernel
  have hq : ∀ p : Port, start.reports[p] = Report.powerOn := by decide +kernel
  refine ⟨start_lists, ⟨fun i r p h => ?_, fun p _ => hq p, fun e a h => ?_, fun i b p h => ?_, fun pr p h => ?_⟩, _, rfl⟩
  · rw [hr] at h; cases h
  · rw [hb] at h; cases h
  · rw [hp] at h; cases h
  · cases h

theorem witness_PendingProposalStaysSound :
    (withProposal7 proposal7).ProposalSound ∧ ∃ t : State, step (withProposal7 proposal7) = .next t := by
  refine ⟨fun pr h => ?_, _, rfl⟩
  cases h
  decide +kernel

theorem witness_GatesStaySound :
    start.ListsSound ∧ start.PlanSound ∧ start.GatesSound ∧ ∃ t : State, step start = .next t :=
  ⟨start_lists, start_plan, start_gates, _, rfl⟩

theorem witness_FreeBusIsOffered :
    start.ListsSound ∧ start.PlanSound ∧ start.GatesSound ∧ start.BusUsed ∧ ∃ t : State, step start = .next t :=
  ⟨start_lists, start_plan, start_gates, fun _ => ⟨rfl, by decide +kernel⟩, _, rfl⟩

theorem witness_FieldsStayInRange : start.InRange ∧ ∃ t : State, step start = .next t := by
  have hr : ∀ i : SlotIx, start.record i = none := by decide +kernel
  have hp : ∀ i : PollIx, start.polls[i].body = none := by decide +kernel
  have hc : ∀ c : ChainIx, start.chains[c].InRange := by unfold Chain.InRange; decide +kernel
  have hv : ∀ e : ResvIx, start.resvs[e] = none := by decide +kernel
  have ha : ∀ p : Port, start.ports[p].answer = none := by decide +kernel
  refine ⟨⟨fun i r h => ?_, by decide +kernel, hc, by decide +kernel, fun i b h => ?_, rfl, by decide +kernel, fun n h => ?_,
    by decide +kernel, fun n h => ?_, by decide +kernel, by decide +kernel, fun pr h => ?_, by decide +kernel, fun e h => ?_,
    fun e a h => ?_, fun g h => ?_, fun p a h => ?_⟩, _, rfl⟩
  · rw [hr] at h; cases h
  · rw [hp] at h; cases h
  · cases h
  · cases h
  · cases h
  · cases h
  · rw [hv] at h; cases h
  · cases h
  · rw [ha] at h; cases h

/-- A WRITE of P0. -/
def write4 : Record := { sample with kind := .write, data := [1, 2, 3, 4] }

/-- `base` with that WRITE at the head of P0.0, held back by the hold flag, and P0's request to release it. -/
def heldWrite : State :=
  { withHead write4 with
    chains := modAt (withHead write4).chains 0 fun ch => { ch with hold := true }
    pending := [.chainGo 0 9 [0]] }

theorem heldWrite_lists : heldWrite.ListsSound := by
  have hr : ∀ i : SlotIx, heldWrite.record i = if i = 0 then some write4 else none := by decide +kernel
  have hl : ∀ c : ChainIx, heldWrite.chains[c].list = if c = 0 then [0] else [] := by decide +kernel
  have hq : ∀ p : Port, heldWrite.reports[p].queue = [] := by decide +kernel
  have of : ∀ (i : SlotIx) (r : Record), heldWrite.record i = some r → i = 0 ∧ r = write4 := fun i r h => by
    rw [hr] at h
    split at h
    · next e => cases h; exact ⟨e, rfl⟩
    · cases h
  have mem : ∀ (c : ChainIx) (i : SlotIx), i ∈ heldWrite.chains[c].list → c = 0 ∧ i = 0 := fun c i h => by
    rw [hl] at h
    split at h
    · next e => exact ⟨e, by simpa using h⟩
    · cases h
  refine ⟨fun c => ?_, fun c i h => ?_, fun c i h => ?_, fun i r h _ => ?_, fun p => ?_, fun p i h => ?_, fun i r h e => ?_,
    fun i r h e => ?_, fun i r h e => ?_⟩
  · rw [hl]; split <;> decide
  · obtain ⟨rfl, rfl⟩ := mem c i h
    exact ⟨write4, rfl, Or.inl rfl, rfl, rfl⟩
  · rw [hl] at h
    split at h <;> cases h
  · obtain ⟨rfl, rfl⟩ := of i r h
    rw [hl]; decide
  · rw [hq]; exact List.nodup_nil
  · rw [hq] at h; cases h
  · obtain ⟨rfl, rfl⟩ := of i r h; cases e
  · obtain ⟨rfl, rfl⟩ := of i r h
    rcases e with e | e <;> cases e
  · obtain ⟨rfl, rfl⟩ := of i r h; cases e

theorem witness_ListsStaySound : heldWrite.ListsSound ∧ ∃ t : State, step heldWrite = .next t := ⟨heldWrite_lists, _, rfl⟩

/-- The step that releases the chain starts its WRITE. -/
theorem witness_NoFencedWriteStarts :
    heldWrite.ListsSound ∧ (∀ x : Exchange, heldWrite.exchange = some x → x.stage ≠ .preamble) ∧
    ∃ t : State, step heldWrite = .next t ∧
      ∃ e : Exchange, t.exchange = some e ∧ e.origin = .record 0 0 ∧ e.op = .write ∧ e.stage = .preamble := by
  refine ⟨heldWrite_lists, fun x h => (by cases h), _, rfl, _, rfl, ?_⟩
  decide +kernel

end Sys2Proof.Tests
end

/-! PROOF. POST (01): the search for the lowest FREE slot (R4), a port's holding (section 1.2), and the answer of each check of R9
and of an accepted POST (R10). -/

namespace Sys2Proof.Machine

variable {s : State} {p : Port} {body : List Byte} {b : PostBody} {i : SlotIx}

/-! ### The lowest FREE slot (R4) -/

/-- The search finds nothing exactly when every slot is held (R9, FULL). -/
theorem lowestFree_eq_none_iff : s.lowestFree = none ↔ ∀ j : SlotIx, s.record j ≠ none := by
  simp [State.lowestFree, State.record, List.find?_eq_none]

/-- The search finds a slot exactly when it is the lowest FREE one: two lowest FREE slots are the same slot. -/
theorem lowestFree_eq_some_iff :
    s.lowestFree = some i ↔ s.record i = none ∧ ∀ j : SlotIx, j < i → s.record j ≠ none := by
  refine ⟨lowestFree_spec s i, fun ⟨hfree, hbelow⟩ => ?_⟩
  cases hk : s.lowestFree with
  | none => exact absurd hfree (lowestFree_eq_none_iff.mp hk i)
  | some k =>
    obtain ⟨hkfree, hkbelow⟩ := lowestFree_spec s k hk
    have hki : k ≤ i := not_lt.mp fun h => hkbelow i h hfree
    have hik : i ≤ k := not_lt.mp fun h => hbelow k h hkfree
    rw [le_antisymm hki hik]

/-! ### A port's holding (section 1.2) -/

/-- A slot counts toward a port's holding exactly when it holds a record the port owns (R2). -/
theorem ownedBy_iff : s.ownedBy p i = true ↔ ∃ r : Record, s.record i = some r ∧ r.owner = some p := by
  unfold State.ownedBy
  cases s.record i <;> simp

/-- The slots that count toward a port's holding, in slot order. -/
def State.ownedSlots (s : State) (p : Port) : List SlotIx := (List.finRange 128).filter (s.ownedBy p)

theorem holding_eq_length_ownedSlots : s.holding p = (s.ownedSlots p).length := List.countP_eq_length_filter

theorem ownedSlots_nodup : (s.ownedSlots p).Nodup := (List.nodup_finRange 128).filter _

theorem mem_ownedSlots : i ∈ s.ownedSlots p ↔ ∃ r : Record, s.record i = some r ∧ r.owner = some p := by
  simp [State.ownedSlots, ownedBy_iff]

/-! ### The checks of R9 in their order, and acceptance -/

section
variable (ha : s.attached p = true)
include ha

theorem postReply_badfield (hb : parsePost body = none) : postReply p body s = refuse .badfield s := by
  rw [postReply, whenAttached_true s _ ha, hb]

variable (hb : parsePost body = some b)
include hb

theorem postReply_faulted (hf : s.sched = .faulted) : postReply p body s = refuse .faulted s := by
  simp [postReply, whenAttached_true s _ ha, hb, hf]

variable (hf : s.sched ≠ .faulted)
include hf

theorem postReply_fenced (hn : s.fenced p b.kind b.target = true) : postReply p body s = refuse .fenced s := by
  simp [postReply, whenAttached_true s _ ha, hb, hf, hn]

variable (hn : s.fenced p b.kind b.target = false)
include hn

theorem postReply_quota (hq : s.quotas[p] ≤ s.holding p) : postReply p body s = refuse .quota s := by
  rw [Fin.getElem_fin] at hq
  simp [postReply, whenAttached_true s _ ha, hb, hf, hn, hq]

variable (hq : s.holding p < s.quotas[p])
include hq

theorem postReply_full (hl : s.lowestFree = none) : postReply p body s = refuse .full s := by
  rw [Fin.getElem_fin] at hq
  simp [postReply, whenAttached_true s _ ha, hb, hf, hn, hq.not_ge, hl]

theorem postReply_accepted (hl : s.lowestFree = some i) :
    postReply p body s = ok [byte i.val, s.slots[i].gen] (offerBus (acceptPost p b i s)) := by
  rw [Fin.getElem_fin] at hq
  simp [postReply, whenAttached_true s _ ha, hb, hf, hn, hq.not_ge, hl]

end

/-- A POST at a port that takes the frame is answered with its reply (R166, R167). -/
theorem post_answered {r : Reply} (seq : Byte) (ht : s.takes p) (h : postReply p body s = r) :
    Answered (.post p seq body) s p seq r.code r.body r.state := by
  subst h
  exact takeRequest_receiving s seq (postReply p body) ht

/-- Settles O13: the holding counts the owned slots; the search of R4 picks the slot an accepted POST fills; and each refusal of R9
is the reply of its own branch, reached with the checks before it passed. -/
theorem postChecksAndEffect : Obligations.PostChecksAndEffect := by
  unfold Obligations.PostChecksAndEffect
  refine ⟨fun p s => ?holding, fun p seq body b i s hs hb hf hn hq hfree hbelow => ?accepted, fun p seq body s hs => ?refused⟩
  case holding =>
    exact ⟨s.ownedSlots p, holding_eq_length_ownedSlots, ownedSlots_nodup, fun _ => mem_ownedSlots⟩
  case accepted =>
    obtain ⟨ht, ha⟩ := hs
    have hl : s.lowestFree = some i := lowestFree_eq_some_iff.mpr ⟨hfree, hbelow⟩
    exact post_answered seq ht (postReply_accepted ha hb hf hn hq hl)
  case refused =>
    obtain ⟨ht, ha⟩ := hs
    refine ⟨fun hb => post_answered seq ht (postReply_badfield ha hb), fun b hb => ⟨?_, ?_, ?_, ?_⟩⟩
    · exact fun hf => post_answered seq ht (postReply_faulted ha hb hf)
    · exact fun hf hn => post_answered seq ht (postReply_fenced ha hb hf hn)
    · exact fun hf hn hq => post_answered seq ht (postReply_quota ha hb hf hn hq)
    · exact fun hf hn hq hheld =>
        post_answered seq ht (postReply_full ha hb hf hn hq (lowestFree_eq_none_iff.mpr hheld))

end Sys2Proof.Machine

/-! PROOF. Bursts (02): R32's six tests, and what a completion does with the grant of its chain and with any other (R31, R33). -/

namespace Sys2Proof.Machine

variable {s : State} {c : ChainIx} {n : Nat}

/-- The tests of R32, one by one, after `n` completions of the grant. -/
theorem mayContinue_iff : s.mayContinue c n = true ↔
    n < s.chains[c].burst ∧ s.chainState c = .ready ∧ s.chains[c].hold = false ∧ s.expired = false ∧ s.sched = .running ∧
      s.line = .ok := by
  simp [State.mayContinue, and_assoc]

theorem burstContinue_of_not_granted (h : ∀ g : Grant, s.grant = some g → g.chain ≠ c) : burstContinue c s = s := by
  unfold burstContinue
  cases hg : s.grant with
  | none => rfl
  | some g => exact if_neg (h g hg)

section
variable (hg : s.grant = some { chain := c, completed := n })
include hg

/-- In its own grant a completion is counted before the tests of R32 are made. -/
theorem burstContinue_of_granted : burstContinue c s =
    if s.mayContinue c (n + 1) then tryStart c { s with grant := some { chain := c, completed := n + 1 } } else endGrant s := by
  simp only [burstContinue, hg, if_true]

theorem burstContinue_of_mayContinue (h : s.mayContinue c (n + 1) = true) :
    burstContinue c s = tryStart c { s with grant := some { chain := c, completed := n + 1 } } :=
  (burstContinue_of_granted hg).trans (if_pos h)

theorem burstContinue_of_not_mayContinue (h : ¬ s.mayContinue c (n + 1) = true) : burstContinue c s = endGrant s :=
  (burstContinue_of_granted hg).trans (if_neg h)

end

/-- Settles O47: by whether the chain holds the grant, and then by R32's tests, which are `mayContinue`. -/
theorem burstWithinGrant : Obligations.BurstWithinGrant := by
  unfold Obligations.BurstWithinGrant
  refine ⟨fun c s => burstContinue_of_not_granted, fun c n s hg => ⟨fun hgo => ?next_try, fun hgo => ?grant_ends⟩⟩
  case next_try => exact burstContinue_of_mayContinue hg (mayContinue_iff.mpr hgo)
  case grant_ends => exact burstContinue_of_not_mayContinue hg (mt mayContinue_iff.mp hgo)

end Sys2Proof.Machine

/-! PROOF. The Field Arbiter (05) and the chains it grants (02): a chain's state from its head (R22), the arbiter's choice as the
first of highest rank in round-robin order (R92, R93), the offer of the bus (R86, R90), and what a grant writes (R31, R94). -/

namespace Sys2Proof.Machine

variable {s : State} {c d : ChainIx} {i : SlotIx} {r : Record}

/-! ### A chain's head and state (R21, R22) -/

theorem head_eq_none_of_nil (h : s.chains[c].list = []) : s.head c = none := by
  unfold State.head; rw [h]

theorem head_eq_some_of_cons {rest : List SlotIx} (h : s.chains[c].list = i :: rest) (hr : s.record i = some r) :
    s.head c = some (i, r) := by
  unfold State.head; rw [h]; exact congrArg (Option.map _) hr

theorem chainState_eq_empty (h : s.head c = none) : s.chainState c = .empty := by
  unfold State.chainState; rw [h]

section
variable (hh : s.head c = some (i, r))
include hh

theorem chainState_eq_ready (h : r.state = .queued) : s.chainState c = .ready := by
  simp [State.chainState, hh, h]

theorem chainState_eq_busy (h : r.state = .active) : s.chainState c = .busy := by
  simp [State.chainState, hh, h]

theorem chainState_eq_halted (h : r.state = .halted) : s.chainState c = .halted := by
  simp [State.chainState, hh, h]

end

/-! ### Round-robin order (R93) -/

/-- The place of chain `c` in the round-robin order of a pointer: 0 for the chain after it, 15 for the pointer's own. -/
def roundRobinPlace (ptr c : ChainIx) : Nat := (c.val + 15 - ptr.val) % 16

theorem roundRobinPlace_injective {ptr : ChainIx} (h : roundRobinPlace ptr c = roundRobinPlace ptr d) : c = d := by
  unfold roundRobinPlace at h
  exact Fin.ext (by omega)

theorem mem_roundRobin (ptr c : ChainIx) : c ∈ roundRobin ptr := by
  refine List.mem_map.mpr ⟨roundRobinPlace ptr c, List.mem_range.mpr (Nat.mod_lt _ (by omega)), Fin.ext ?_⟩
  simp only [roundRobinPlace]
  omega

theorem roundRobin_pairwise_place (ptr : ChainIx) :
    (roundRobin ptr).Pairwise fun c d => roundRobinPlace ptr c < roundRobinPlace ptr d := by
  refine List.pairwise_map.mpr (List.pairwise_lt_range.imp_of_mem fun {j k} hj hk hjk => ?_)
  rw [List.mem_range] at hj hk
  simp only [roundRobinPlace]
  omega

/-! ### The arbiter's choice (R92, R93) -/

/-- Chain `c` goes before chain `d` at the arbiter, or is `d`: by rank, and on a tie by round-robin order. -/
def State.prefers (s : State) (c d : ChainIx) : Prop :=
  s.chains[d].rank < s.chains[c].rank ∨
    (s.chains[d].rank = s.chains[c].rank ∧ roundRobinPlace s.pointer c ≤ roundRobinPlace s.pointer d)

theorem prefers_antisymm (hcd : s.prefers c d) (hdc : s.prefers d c) : c = d := by
  unfold State.prefers at hcd hdc
  exact roundRobinPlace_injective (ptr := s.pointer) (by omega)

theorem firstOfHighest_eq_none_iff {l : List ChainIx} : firstOfHighest s l = none ↔ l = [] := by
  cases l with
  | nil => simp [firstOfHighest]
  | cons c l =>
    simp only [firstOfHighest, reduceCtorEq, iff_false]
    split
    · simp
    · split <;> simp

/-- Of a list in round-robin order, the chain found is one of its chains and goes before all others. -/
theorem firstOfHighest_spec {l : List ChainIx}
    (hl : l.Pairwise fun c d => roundRobinPlace s.pointer c < roundRobinPlace s.pointer d) (h : firstOfHighest s l = some c) :
    c ∈ l ∧ ∀ d ∈ l, s.prefers c d := by
  induction l generalizing c with
  | nil => cases h
  | cons a l ih =>
    obtain ⟨ha, hl⟩ := List.pairwise_cons.mp hl
    have haa : s.prefers a a := .inr ⟨rfl, le_rfl⟩
    simp only [firstOfHighest] at h
    cases he : firstOfHighest s l with
    | none =>
      obtain rfl := firstOfHighest_eq_none_iff.mp he
      cases h
      exact ⟨List.mem_singleton_self _, by simpa using haa⟩
    | some e =>
      obtain ⟨hel, hbest⟩ := ih hl he
      rw [he] at h
      by_cases hlt : s.chains[a].rank < s.chains[e].rank
      · obtain rfl : e = c := Option.some.inj ((if_pos hlt).symm.trans h)
        exact ⟨.tail _ hel, List.forall_mem_cons.mpr ⟨.inl hlt, hbest⟩⟩
      · obtain rfl : a = c := Option.some.inj ((if_neg hlt).symm.trans h)
        refine ⟨.head _, List.forall_mem_cons.mpr ⟨haa, fun d hd => ?_⟩⟩
        have hed := hbest d hd
        have had := ha d hd
        unfold State.prefers at hed ⊢
        omega

/-- The chains among which the arbiter chooses, in its order, are the eligible ones. -/
theorem mem_candidates_iff : c ∈ (roundRobin s.pointer).filter s.eligible ↔ s.eligible c = true := by
  simp [mem_roundRobin]

theorem choice_eq_none_iff : s.choice = none ↔ ∀ c : ChainIx, s.eligible c = false := by
  simp [State.choice, firstOfHighest_eq_none_iff, List.filter_eq_nil_iff, mem_roundRobin]

theorem choice_prefers (h : s.choice = some c) (hd : s.eligible d = true) : s.prefers c d :=
  (firstOfHighest_spec ((roundRobin_pairwise_place _).filter _) h).2 d (mem_candidates_iff.mpr hd)

theorem choice_eq_some_iff :
    s.choice = some c ↔ s.eligible c = true ∧ ∀ d : ChainIx, s.eligible d = true → s.prefers c d := by
  refine ⟨fun h => ⟨choice_eligible s h, fun d => choice_prefers h⟩, fun ⟨hc, hbest⟩ => ?_⟩
  cases he : s.choice with
  | none => simp [choice_eq_none_iff.mp he c] at hc
  | some e => rw [prefers_antisymm (choice_prefers he hc) (hbest e (choice_eligible s he))]

/-! ### The offer of the bus (R86, R90) -/

theorem mayOffer_iff : s.mayOffer = true ↔
    s.exchange = none ∧ s.grant = none ∧ s.expired = false ∧ s.sched = .running ∧ s.line = .ok := by
  simp [State.mayOffer, State.idle, and_assoc]

/-- R86's conditions do not ask for the phase. -/
theorem phaseTest_mayOffer : (phaseTest s).mayOffer = s.mayOffer := by
  unfold phaseTest; split <;> rfl

theorem phaseTest_of_chain (h : s.phase = .chain) : phaseTest s = s := by
  simp [phaseTest, h]

theorem offerBus_of_not_mayOffer (h : s.mayOffer = false) : offerBus s = phaseTest s := by
  simp [offerBus, phaseTest_mayOffer, h]

/-- In the CHAIN phase the bus is offered to the arbiter alone. -/
theorem offerBus_of_chain (h : s.phase = .chain) : offerBus s = offerChains 17 s := by
  cases hm : s.mayOffer
  · rw [offerBus_of_not_mayOffer hm, phaseTest_of_chain h, offerChains_busy s 17 hm]
  · simp [offerBus, phaseTest_of_chain h, hm, h]

@[simp] theorem mark_phase (m : Deferred) (p : Port) : (mark m p s).phase = s.phase := by
  unfold mark; split <;> rfl

@[simp] theorem haltHead_phase (why : HaltReason) : (haltHead c i r why s).phase = s.phase := by
  rw [haltHead, mark_phase, putRecord_phase]

@[simp] theorem damageSlot_phase : (damageSlot i s).phase = s.phase := by
  unfold damageSlot; split
  · rw [putRecord_phase, unlist_phase]
  · rfl

@[simp] theorem tryStart_phase : (tryStart c s).phase = s.phase := by
  unfold tryStart
  split
  · rw [endGrant_phase]
  · split
    · rw [storeFault_phase, damageSlot_phase]
    · split
      · rw [endGrant_phase, haltHead_phase]
      · rw [startExchange_phase, putRecord_phase]

theorem offerChains_of_choice (n : Nat) (hm : s.mayOffer = true) (hc : s.choice = some c) :
    offerChains (n + 1) s = offerChains n (tryStart c (grantTo c s)) := by
  simp [offerChains, hm, hc]

theorem offerBus_of_no_choice (hp : s.phase = .chain) (hc : s.choice = none) : offerBus s = s := by
  rw [offerBus_of_chain hp]
  simp [offerChains, hc]

theorem eligibleCount_le : s.eligibleCount ≤ 16 :=
  List.countP_le_length.trans_eq (List.length_finRange)

/-- A grant is followed by another offer (R90): the round it used up is not missed, since sixteen are enough for the rest. -/
theorem offerBus_of_choice (hm : s.mayOffer = true) (hp : s.phase = .chain) (hc : s.choice = some c) :
    offerBus s = offerBus (tryStart c (grantTo c s)) := by
  have hp' : (tryStart c (grantTo c s)).phase = .chain := by rw [tryStart_phase, grantTo_phase, hp]
  calc offerBus s
      = offerChains 17 s := offerBus_of_chain hp
    _ = offerChains 16 (tryStart c (grantTo c s)) := offerChains_of_choice 16 hm hc
    _ = offerChains 17 (tryStart c (grantTo c s)) := (offerChains_enough _ 16 eligibleCount_le).symm
    _ = offerBus (tryStart c (grantTo c s)) := (offerBus_of_chain hp').symm

/-! ### What a grant writes (R31, R94) -/

theorem grantTo_frame :
    grantTo c s =
      { s with chains := (grantTo c s).chains, pointer := c, grant := some { chain := c, completed := 0 } } := by
  simp only [grantTo]

theorem grantTo_chain : (grantTo c s).chains[d] =
    if d = c then { s.chains[d] with age := 0 }
    else if s.eligible d then { s.chains[d] with age := satInc 15 s.chains[d].age }
    else s.chains[d] := by
  simp only [grantTo]; rw [tab_get]

theorem grantTo_chain_self : (grantTo c s).chains[c] = { s.chains[c] with age := 0 } :=
  grantTo_chain.trans (if_pos rfl)

theorem grantTo_chain_eligible (hd : d ≠ c) (he : s.eligible d = true) :
    (grantTo c s).chains[d] = { s.chains[d] with age := min 15 (s.chains[d].age + 1) } :=
  grantTo_chain.trans ((if_neg hd).trans (if_pos he))

theorem grantTo_chain_not_eligible (hd : d ≠ c) (he : s.eligible d = false) : (grantTo c s).chains[d] = s.chains[d] :=
  grantTo_chain.trans ((if_neg hd).trans (if_neg (by simp [he])))

/-- Settles O39: clause by clause, the choice by the chain that goes before every other eligible one, and the offer in the CHAIN
phase by the rounds that one event needs. -/
theorem arbiterGrants : Obligations.ArbiterGrants := by
  unfold Obligations.ArbiterGrants
  refine ⟨fun c s => ⟨fun hnil => ?no_head, fun i rest r hl hr => ?head⟩, fun s => ?choice, fun s => ?offer, fun c s => ?grant⟩
  case no_head =>
    have hh := head_eq_none_of_nil hnil
    exact ⟨hh, chainState_eq_empty hh⟩
  case head =>
    have hh := head_eq_some_of_cons hl hr
    exact ⟨hh, chainState_eq_ready hh, chainState_eq_busy hh, chainState_eq_halted hh⟩
  case choice => exact ⟨eligible_iff s, fun c => choice_eq_some_iff, choice_eq_none_iff⟩
  case offer =>
    refine ⟨mayOffer_iff, offerBus_of_not_mayOffer, fun hm hp => ⟨offerBus_of_no_choice hp, fun c hc => ?_⟩⟩
    exact offerBus_of_choice hm hp hc
  case grant =>
    exact ⟨grantTo_frame, grantTo_chain_self, fun d hd => ⟨grantTo_chain_eligible hd, grantTo_chain_not_eligible hd⟩⟩

end Sys2Proof.Machine

/-! PROOF. The fence (07): an entry's match (R117), and the two queries of R123 as searches of the Reservation Table for an entry of
another port. -/

namespace Sys2Proof.Machine

variable {s : State} {p : Port} {t : BitVec 6}

theorem matches6_iff {base mask : BitVec 6} : matches6 base mask t = true ↔ t ≠ 0 ∧ t &&& mask = base &&& mask := by
  rw [matches6, Bool.and_eq_true, bne_iff_ne, beq_iff_eq]

/-! ### The search of the table (R123) -/

/-- A FREE entry, and a port's own, answer no query; any other answers by its property. -/
theorem otherClaim_iff {f : Reservation → Bool} :
    s.otherClaim p f = true ↔ ∃ (e : ResvIx) (a : Reservation), s.resvs[e] = some a ∧ a.owner ≠ p ∧ f a = true := by
  rw [State.otherClaim, List.any_eq_true]
  refine exists_congr fun e => ?_
  cases s.resvs[e] <;> simp [List.mem_finRange]

/-- The search says what its test on one entry says. -/
theorem otherClaim_iff_of {f : Reservation → Bool} {P : Reservation → Prop} (hf : ∀ a, f a = true ↔ P a) :
    s.otherClaim p f = true ↔ ∃ (e : ResvIx) (a : Reservation), s.resvs[e] = some a ∧ a.owner ≠ p ∧ P a := by
  simp only [otherClaim_iff, hf]

/-! ### The two queries (R123) -/

theorem withheld_iff : s.withheld p t = true ↔
    ∃ (e : ResvIx) (a : Reservation), s.resvs[e] = some a ∧ a.owner ≠ p ∧ a.priv = true ∧ matches6 a.base a.mask t = true :=
  otherClaim_iff_of fun _ => Bool.and_eq_true_iff

theorem fenced_write_iff : s.fenced p .write t = true ↔
    ∃ (e : ResvIx) (a : Reservation), s.resvs[e] = some a ∧ a.owner ≠ p ∧ matches6 a.base a.mask t = true :=
  otherClaim_iff

/-- A MODIFY is fenced as a WRITE at every point, its read phase included (R123). -/
theorem fenced_modify : s.fenced p .modify t = s.fenced p .write t := rfl

/-- A BROADCAST is fenced by every entry held by another port, whatever its match set (R123). -/
theorem fenced_broadcast_iff : s.fenced p .broadcast t = true ↔
    ∃ (e : ResvIx) (a : Reservation), s.resvs[e] = some a ∧ a.owner ≠ p ∧ True :=
  otherClaim_iff_of fun _ => iff_true_intro rfl

/-- A READ is fenced by the PRIVATE entries alone, those that withhold its target (R123). -/
theorem fenced_read_iff : s.fenced p .read t = true ↔
    ∃ (e : ResvIx) (a : Reservation), s.resvs[e] = some a ∧ a.owner ≠ p ∧ matches6 a.base a.mask t = true ∧ a.priv = true :=
  otherClaim_iff_of fun _ => Bool.and_eq_true_iff.trans and_comm

/-- Settles O25: the match by its two conditions, and each query by the search of the table with the test that R123 gives its kind. -/
theorem fenceQuery : Obligations.FenceQuery := by
  unfold Obligations.FenceQuery
  refine ⟨fun base mask t => matches6_iff, fun p k t s => ⟨?fenced, withheld_iff⟩⟩
  case fenced =>
    cases k with
    | write => exact fenced_write_iff
    | modify => rw [fenced_modify]; exact fenced_write_iff
    | broadcast => exact fenced_broadcast_iff
    | read => exact fenced_read_iff

end Sys2Proof.Machine

/-! PROOF. What a step is made of. `Quiet` changes only count, send and answer: the ports, the counters of the line and the course of
the exchange in progress. `Event` has one constructor for each way a command or an input reaches the blocks behind them. Every
command is a quiet change, one event, and a quiet change (`exec_carries`), and so is every step (`step_carries`): an invariant that
both keep is kept by every step (`step_keeps`). -/

namespace Sys2Proof.Machine

/-! ### Quiet changes -/

/-- `e'` is the exchange `e` further on in its course: what it is about stays, its counts keep their ranges, and it is never back in
PREAMBLE (R47 to R51). -/
structure Exchange.Leads (e e' : Exchange) : Prop where
  origin : e'.origin = e.origin
  phase : e'.phase = e.phase
  op : e'.op = e.op
  target : e'.target = e.target
  span : e'.span = e.span
  send : e'.send = e.send
  preamble : e'.stage = .preamble → e.stage = .preamble
  range : e.InRange → e'.InRange

theorem Exchange.Leads.refl (e : Exchange) : e.Leads e := ⟨rfl, rfl, rfl, rfl, rfl, rfl, id, id⟩

theorem Exchange.Leads.trans {e f g : Exchange} (h : e.Leads f) (k : f.Leads g) : e.Leads g :=
  ⟨k.origin.trans h.origin, k.phase.trans h.phase, k.op.trans h.op, k.target.trans h.target, k.span.trans h.span,
    k.send.trans h.send, h.preamble ∘ k.preamble, k.range ∘ h.range⟩

/-- The idle bytes of every response are in the range of R167. -/
def State.AnswersInRange (s : State) : Prop := ∀ (p : Port) (a : Answer), s.ports[p].answer = some a → a.idle ≤ 8

/-- `t` differs from `s` at most in what the ports and the field line count, send and answer. -/
structure Quiet (s t : State) : Prop where
  frame : t = { s with
    ports := t.ports, exchange := t.exchange, run := t.run, releasedCount := t.releasedCount, fresh := t.fresh }
  attached : ∀ p : Port, t.attached p = s.attached p
  answers : s.AnswersInRange → t.AnswersInRange
  idle : s.exchange = none → t.exchange = none
  course : ∀ e : Exchange, s.exchange = some e → ∃ e' : Exchange, t.exchange = some e' ∧ e.Leads e'
  run : s.run ≤ 64 → t.run ≤ 64
  released : s.releasedCount ≤ 255 → t.releasedCount ≤ 255

namespace Quiet

variable {s t u : State}

theorem refl (s : State) : Quiet s s :=
  ⟨rfl, fun _ => rfl, id, id, fun e h => ⟨e, h, .refl e⟩, id, id⟩

theorem trans (h : Quiet s t) (k : Quiet t u) : Quiet s u where
  frame := by rw [k.frame, h.frame]
  attached p := (k.attached p).trans (h.attached p)
  answers := k.answers ∘ h.answers
  idle := k.idle ∘ h.idle
  course e he := by
    obtain ⟨f, hf, hef⟩ := h.course e he
    obtain ⟨g, hg, hfg⟩ := k.course f hf
    exact ⟨g, hg, hef.trans hfg⟩
  run := k.run ∘ h.run
  released := k.released ∘ h.released

/-- A change of one port that keeps its session and the range of its idle bytes. -/
theorem modPort {p : Port} {f : PortIf → PortIf} (hatt : (f s.ports[p]).attached = s.ports[p].attached)
    (hans : ∀ a : Answer, (f s.ports[p]).answer = some a → a.idle ≤ 8 ∨ ∃ b, s.ports[p].answer = some b ∧ a.idle ≤ b.idle) :
    Quiet s (Sys2Proof.Machine.modPort p f s) where
  frame := rfl
  attached q := by
    simp only [State.attached, Sys2Proof.Machine.modPort]
    rw [modAt_get]
    split
    · next h => rw [h, hatt]
    · rfl
  answers h q a ha := by
    simp only [Sys2Proof.Machine.modPort] at ha
    rw [modAt_get] at ha
    split at ha
    · obtain hle | ⟨b, hb, hab⟩ := hans a ha
      · exact hle
      · exact hab.trans (h p b hb)
    · exact h q a ha
  idle h := h
  course e h := ⟨e, h, .refl e⟩
  run h := h
  released h := h

/-- Answering a request is quiet: at most 8 idle bytes stand before the response (R167). -/
theorem respond (p : Port) (seq : Byte) (c : ResultCode) (body : List Byte) (s : State) :
    Quiet s (Sys2Proof.Machine.respond p seq c body s) where
  frame := rfl
  attached q := respond_attached s p q seq c body
  answers h q a ha := by
    by_cases hq : q = p
    · subst hq
      rw [respond_port_self] at ha
      cases ha
      exact Nat.le_of_lt_succ (Config.idleBytes s.fresh).isLt
    · rw [respond_port_ne s seq c body hq] at ha
      exact h q a ha
  idle h := h
  course e h := ⟨e, h, .refl e⟩
  run h := h
  released h := h

/-- The exchange in progress goes on, and the line monitor's run is set (R60). -/
theorem goOn {f : Exchange → Exchange} {n : Nat} (hf : ∀ e : Exchange, s.exchange = some e → e.Leads (f e))
    (hn : s.run ≤ 64 → n ≤ 64) : Quiet s { modExchange f s with run := n } where
  frame := rfl
  attached _ := rfl
  answers h := h
  idle h := by simp [h]
  course e h := ⟨f e, by simp [h], hf e h⟩
  run := hn
  released h := h

theorem modExchange {f : Exchange → Exchange} (hf : ∀ e : Exchange, s.exchange = some e → e.Leads (f e)) :
    Quiet s (Sys2Proof.Machine.modExchange f s) := goOn hf id

theorem setRun {n : Nat} (hn : s.run ≤ 64 → n ≤ 64) : Quiet s { s with run := n } where
  frame := rfl
  attached _ := rfl
  answers h := h
  idle h := h
  course e h := ⟨e, h, .refl e⟩
  run := hn
  released h := h

theorem setReleased {n m : Nat} (hn : s.run ≤ 64 → n ≤ 64) (hm : s.releasedCount ≤ 255 → m ≤ 255) :
    Quiet s { s with releasedCount := m, run := n } where
  frame := rfl
  attached _ := rfl
  answers h := h
  idle h := h
  course e h := ⟨e, h, .refl e⟩
  run := hn
  released := hm

end Quiet

/-! ### Events -/

/-- A request of port `p` has found slot `i`: by its handle (R6), in its report queue (R132) or in one of its chains (R41). -/
def State.reaches (s : State) (p : Port) (i : SlotIx) : Prop :=
  (∃ r : Record, s.record i = some r ∧ r.owner = some p ∧ r.state ≠ .orphaned) ∨
    i ∈ s.reports[p].queue ∨ ∃ c : ChainIx, chainPort c = p ∧ i ∈ s.chains[c].list

/-- A session begins (R170). -/
def PortIf.beginSession (q : PortIf) : PortIf := { q with attached := true, session := q.session + 1 }

/-- LINE FAULT is entered (R60). -/
def enterLineFault (s : State) : State :=
  raiseAll .fault { s with line := .fault, run := Config.lineFaultBits, releasedCount := 0 }

/-- The ways in which a command or an input changes more than `Quiet` does, each with what its checks have established. -/
inductive Event : State → State → Prop
  | nothing (s : State) : Event s s
  | powerOn (s : State) : Event s (powerOn s)
  | attach {s : State} {p : Port} (ha : s.attached p = false) : Event s (modPort p PortIf.beginSession s)
  | sessionEnd {s : State} {p : Port} (ha : s.attached p = true) : Event s (offerBus (sessionEnd p s))
  | post {s : State} {p : Port} {body : List Byte} {b : PostBody} {i : SlotIx} (ha : s.attached p = true)
      (hb : parsePost body = some b) (hi : s.record i = none) : Event s (offerBus (acceptPost p b i s))
  | storeFault {s : State} {p : Port} {l : List SlotIx} (ha : s.attached p = true) (hl : ∀ i ∈ l, s.reaches p i) :
      Event s (storeFault (l.foldl (fun s i => damageSlot i s) s))
  | retire {s : State} {p : Port} {i : SlotIx} {r : Record} {k : EndKind} (ha : s.attached p = true) (hr : s.record i = some r)
      (hp : s.reaches p i) (hs : r.state = .queued ∨ r.state = .halted) : Event s (offerBus (retire i r k s))
  | cancelActive {s : State} {i : SlotIx} {r : Record} (hr : s.record i = some r) (hs : r.state = .active) :
      Event s (setCancelPending i r s)
  | flush {s : State} {c : ChainIx} (ha : s.attached (chainPort c) = true) : Event s (flushChain c s).2.2
  | chainSet {s : State} {c : ChainIx} {prio burst : Nat} (hp : prio ≤ 3) (hb : 1 ≤ burst ∧ burst ≤ 8) :
      Event s (modChain c (fun ch => { ch with priority := prio, burst := burst }) s)
  | chainPause {s : State} {c : ChainIx} : Event s (modChain c (fun ch => { ch with hold := true }) s)
  | chainGo {s : State} {c : ChainIx} : Event s (offerBus (modChain c (fun ch => { ch with hold := false }) s))
  | chainRetry {s : State} {c : ChainIx} {i : SlotIx} {r : Record} (hh : s.head c = some (i, r)) (hs : r.state = .halted) :
      Event s (offerBus (putRecord i r.retried s))
  | pollCreate {s : State} {p : Port} {body : List Byte} {d : PollDef} {i : PollIx} (ha : s.attached p = true)
      (hd : parsePollDef body = some d) (hs : s.sameIdentity d none = none) (hi : s.polls[i].body = none) :
      Event s (modPoll i (fun en => { edit := en.edit + 1, body := some (d.body p) }) s)
  | pollChange {s : State} {body : List Byte} {d : PollDef} {i : PollIx} {b : PollBody}
      (hd : parsePollDef body = some d) (hs : s.sameIdentity d (some i) = none) (hb : s.polls[i].body = some b) :
      Event s (modPoll i (fun en => { edit := en.edit + 1, body := some (b.redefined d) }) s)
  | pollPause {s : State} {i : PollIx} {b : PollBody} (hb : s.polls[i].body = some b) :
      Event s (unpend i (modPoll i (fun en => { en with body := some { b with paused := true } }) s))
  | pollResume {s : State} {i : PollIx} {b : PollBody} (hb : s.polls[i].body = some b) :
      Event s (modPoll i (fun en => { en with body := some { b with paused := false } }) s)
  | pollDelete {s : State} {i : PollIx} : Event s (unpend i (modPoll i (fun en => { edit := en.edit + 1, body := none }) s))
  | pollAdopt {s : State} {p : Port} {i : PollIx} {b : PollBody} (ha : s.attached p = true) (hb : s.polls[i].body = some b) :
      Event s (modPoll i (fun en => { en with body := some { b with creator := some p } }) s)
  | claim {s : State} {p : Port} {body : List Byte} {base mask : BitVec 6} {priv : Bool} {lease : Nat} {e : ResvIx}
      (ha : s.attached p = true) (hb : parseClaim body = some (base, mask, priv, lease)) (hc : s.conflicts p base mask = false) :
      Event s
        (setResv e (some { owner := p, base := base, mask := mask, priv := priv, lease := lease, remaining := lease }) s)
  | renew {s : State} {e : ResvIx} {a : Reservation} (he : s.resvs[e] = some a) :
      Event s (setResv e (some { a with remaining := a.lease }) s)
  | release {s : State} {e : ResvIx} : Event s (setResv e none s)
  | fetch {s : State} {p : Port} {i : SlotIx} {rest : List SlotIx} (hq : s.reports[p].queue = i :: rest) :
      Event s (freeSlot i (unlist i s))
  | notify {s : State} {p : Port} {f : Report → Report} (ha : s.attached p = true) (hf : ∀ r, (f r).queue = r.queue) :
      Event s (modReport p f s)
  | propose {s : State} {p : Port} {body : List Byte} {c : Change} (ha : s.attached p = true) (hb : parseChange body = some c)
      (hn : (newProposal p c s).complete = false) : Event s (acceptPropose p c s)
  | proposeAlone {s : State} {p : Port} {body : List Byte} {c : Change} (hb : parseChange body = some c) :
      Event s (decideByConsent (newProposal p c s) (acceptPropose p c s))
  | confirm {s : State} {p : Port} {pr : Proposal} (hp : s.proposal = some pr) (hr : pr.required.has p = true)
      (hn : (pr.confirmedBy p).complete = false) : Event s { s with proposal := some (pr.confirmedBy p) }
  | consent {s : State} {p : Port} {pr : Proposal} (hp : s.proposal = some pr) : Event s (decideByConsent (pr.confirmedBy p) s)
  | decide {s : State} {pr : Proposal} {v : Verdict} (hv : v ≠ .adopted) : Event s (decideProposal pr v s)
  | overrun {s : State} (he : s.exchange ≠ none) : Event s (overrun s)
  | turnover {s : State} (he : s.exchange = none) : Event s (turnoverNow s)
  | endExchange {s : State} {e e' : Exchange} {o : Outcome} {words : List Word} (he : s.exchange = some e) (hl : e.Leads e')
      (hw : words.length ≤ e.span.count) : Event s (endExchange e' o words s)
  | lineFault {s : State} (he : s.exchange = none) : Event s (enterLineFault s)
  | lineFaultEnd {s : State} {e : Exchange} (he : s.exchange = some e) : Event s (endExchange e .line [] (enterLineFault s))
  | lineOk {s : State} : Event s (offerBus { s with line := .ok, run := 0, releasedCount := 0 })
  | upset {s : State} (i : SlotIx) (stored : Record) : Event s (upsetSlot i stored s)

/-- A quiet change, one event, and a quiet change. -/
def Carries (s t : State) : Prop := ∃ u v : State, Quiet s u ∧ Event u v ∧ Quiet v t

variable {s t : State}

theorem Event.carries (h : Event s t) : Carries s t := ⟨s, t, .refl s, h, .refl t⟩

theorem Quiet.carries (h : Quiet s t) : Carries s t := ⟨s, s, .refl s, .nothing s, h⟩

/-- The command gives a next state, and what it changes is a quiet change, one event, and a quiet change. -/
def CarriedOut (s : State) (o : Host.Outcome State Fault Refusal) : Prop := ∃ t : State, o = .next t ∧ Carries s t

theorem Event.carriedOut (h : Event s t) : CarriedOut s (.next t) := ⟨t, rfl, h.carries⟩

theorem Quiet.carriedOut (h : Quiet s t) : CarriedOut s (.next t) := ⟨t, rfl, h.carries⟩

theorem carriedOut_next (s : State) : CarriedOut s (.next s) := (Quiet.refl s).carriedOut

theorem Quiet.then {o : Host.Outcome State Fault Refusal} (h : Quiet s t) (k : CarriedOut t o) : CarriedOut s o := by
  obtain ⟨r, hr, u, v, hu, he, hv⟩ := k
  exact ⟨r, hr, u, v, h.trans hu, he, hv⟩

/-! ### Requests -/

/-- A request's effect is an event, and its answer is quiet. -/
theorem takeRequest_carriedOut {p : Port} {seq : Byte} {f : State → Reply} (h : Event s (f s).state) :
    CarriedOut s (takeRequest p seq f s) := by
  unfold takeRequest
  split
  · exact ⟨_, rfl, s, _, .refl s, h, .respond p seq _ _ _⟩
  · exact carriedOut_next s

theorem whenAttached_event {p : Port} {f : State → Reply} (h : s.attached p = true → Event s (f s).state) :
    Event s (whenAttached p f s).state := by
  unfold whenAttached
  split
  · next ha => exact h ha
  · exact .nothing s

theorem postReply_event (p : Port) (body : List Byte) : Event s (postReply p body s).state := by
  refine whenAttached_event fun ha => ?_
  split
  · exact .nothing s
  · next b hb =>
    split_ifs
    · exact .nothing s
    · exact .nothing s
    · exact .nothing s
    · split
      · exact .nothing s
      · next i hi => exact .post ha hb (lowestFree_spec s i hi).1

/-- A record that passes the checks of R6 is held, owned by the port and not ORPHANED. -/
theorem withHandle_event {p : Port} {body : List Byte} {f : SlotIx → Record → State → Reply}
    (h : ∀ (i : SlotIx) (r : Record), s.attached p = true → s.record i = some r → s.reaches p i → Event s (f i r s).state) :
    Event s (withHandle p body f s).state := by
  refine whenAttached_event fun ha => ?_
  split
  · exact .nothing s
  · split
    · exact .nothing s
    · next r hr =>
      split_ifs with hst hown
      · exact .nothing s
      · exact .nothing s
      · obtain ⟨horph, -, -⟩ := not_or.mp hst |>.imp_right not_or.mp
        exact h _ r ha hr (.inl ⟨r, hr, not_not.mp hown, horph⟩)

theorem storeFault_one_event {p : Port} {i : SlotIx} (ha : s.attached p = true) (hp : s.reaches p i) :
    Event s (storeFault (damageSlot i s)) :=
  .storeFault (l := [i]) ha (by simpa using hp)

theorem peekReply_event (p : Port) (body : List Byte) : Event s (peekReply p body s).state := by
  refine withHandle_event fun i r ha _ hp => ?_
  unfold peekRecord
  split
  · exact storeFault_one_event ha hp
  · exact .nothing s

theorem cancelReply_event (p : Port) (body : List Byte) : Event s (cancelReply p body s).state := by
  refine withHandle_event fun i r ha hr hp => ?_
  unfold cancelRecord
  split
  · next hs => exact .retire ha hr hp (.inl hs)
  · next hs => exact .retire ha hr hp (.inr hs)
  · next hs => exact .cancelActive hr hs
  all_goals exact .nothing s

theorem chainPort_chainIx (p : Port) (c : Fin 4) : chainPort (chainIx p c) = p := by
  ext; simp only [chainPort, chainIx]; omega

theorem withChain_event {p : Port} {body : List Byte} {f : ChainIx → State → Reply}
    (h : ∀ c : ChainIx, s.attached p = true → chainPort c = p → Event s (f c s).state) :
    Event s (withChain p body f s).state := by
  refine whenAttached_event fun ha => ?_
  split
  · exact .nothing s
  · next c _ => exact h (chainIx p c) ha (chainPort_chainIx p c)

theorem whenHalted_event {c : ChainIx} {f : SlotIx → Record → State → Reply}
    (h : ∀ (i : SlotIx) (r : Record), s.head c = some (i, r) → r.state = .halted → Event s (f i r s).state) :
    Event s (whenHalted c f s).state := by
  unfold whenHalted
  split
  · next i r hh =>
    split
    · next hs => exact h i r hh hs
    · exact .nothing s
  · exact .nothing s

theorem parseChainSet_range {body : List Byte} {c : Fin 4} {prio burst : Nat}
    (h : parseChainSet body = some (c, prio, burst)) : prio ≤ 3 ∧ 1 ≤ burst ∧ burst ≤ 8 := by
  unfold parseChainSet at h
  split at h
  · split at h
    · split at h
      · next hr => cases h; exact hr
      · cases h
    · cases h
  · cases h

theorem chainSetReply_event (p : Port) (body : List Byte) : Event s (chainSetReply p body s).state := by
  refine whenAttached_event fun _ => ?_
  split
  · exact .nothing s
  · next c prio burst hb =>
    obtain ⟨hp, hburst⟩ := parseChainSet_range hb
    exact .chainSet hp hburst

theorem head_reached {p : Port} {c : ChainIx} {i : SlotIx} {r : Record} (hc : chainPort c = p) (hh : s.head c = some (i, r)) :
    s.reaches p i := by
  obtain ⟨hl, -⟩ := head_slot s hh
  exact .inr (.inr ⟨c, hc, List.mem_of_head? hl⟩)

theorem chainRetryReply_event (p : Port) (body : List Byte) : Event s (chainRetryReply p body s).state :=
  withChain_event fun _ _ _ => whenHalted_event fun _ _ hh hs => .chainRetry hh hs

theorem chainDropReply_event (p : Port) (body : List Byte) : Event s (chainDropReply p body s).state :=
  withChain_event fun _ ha hc => whenHalted_event fun _ _ hh hs =>
    .retire ha (head_slot s hh).2 (head_reached hc hh) (.inr hs)

theorem chainFlushReply_event (p : Port) (body : List Byte) : Event s (chainFlushReply p body s).state :=
  withChain_event fun c ha hc => .flush (by rw [hc]; exact ha)

theorem chainQueryReply_event (p : Port) (body : List Byte) : Event s (chainQueryReply p body s).state := by
  refine whenAttached_event fun ha => ?_
  split
  · exact .nothing s
  · next c start _ =>
    dsimp only
    split
    · exact .nothing s
    · exact .storeFault ha fun i hi =>
        .inr (.inr ⟨chainIx p c, chainPort_chainIx p c, List.mem_of_mem_filter hi⟩)

theorem targetQueryReply_event (p : Port) (body : List Byte) : Event s (targetQueryReply p body s).state := by
  refine whenAttached_event fun _ => ?_
  split <;> exact .nothing s

theorem withEntry_event {p : Port} {body : List Byte} {f : PollIx → PollBody → State → Reply}
    (h : ∀ (i : PollIx) (b : PollBody), s.attached p = true → s.polls[i].body = some b → Event s (f i b s).state) :
    Event s (withEntry p body f s).state := by
  refine whenAttached_event fun ha => ?_
  split
  · exact .nothing s
  · split
    · exact .nothing s
    · next b hb => exact h _ b ha hb

theorem asCreator_event {p : Port} {b : PollBody} {f : State → Reply} (h : Event s (f s).state) :
    Event s (asCreator p b f s).state := by
  unfold asCreator
  split
  · exact h
  · exact .nothing s

theorem pollCreateReply_event (p : Port) (body : List Byte) : Event s (pollCreateReply p body s).state := by
  refine whenAttached_event fun ha => ?_
  split
  · exact .nothing s
  · next d hd =>
    split
    · exact .nothing s
    · split
      · exact .nothing s
      · next hs =>
        split
        · exact .nothing s
        · next i hi => exact .pollCreate ha hd hs (by simpa using List.find?_some hi)

theorem parsePollChange_def {body : List Byte} {i : PollIx} {d : PollDef} (h : parsePollChange body = some (i, d)) :
    ∃ rest : List Byte, parsePollDef rest = some d := by
  unfold parsePollChange at h
  split at h
  · next rest =>
    split at h
    · next hd => cases h; exact ⟨rest, hd⟩
    · cases h
  · cases h

theorem pollChangeReply_event (p : Port) (body : List Byte) : Event s (pollChangeReply p body s).state := by
  refine whenAttached_event fun _ => ?_
  split
  · exact .nothing s
  · next i d hd =>
    obtain ⟨rest, hrest⟩ := parsePollChange_def hd
    split
    · exact .nothing s
    · next b hb =>
      refine asCreator_event ?_
      split
      · exact .nothing s
      · next hs => exact .pollChange hrest hs hb

theorem pollPauseReply_event (p : Port) (body : List Byte) : Event s (pollPauseReply p body s).state := by
  refine withEntry_event fun i b _ hb => asCreator_event ?_
  split
  · exact .nothing s
  · exact .pollPause hb

theorem pollResumeReply_event (p : Port) (body : List Byte) : Event s (pollResumeReply p body s).state :=
  withEntry_event fun _ _ _ hb => asCreator_event (.pollResume hb)

theorem pollDeleteReply_event (p : Port) (body : List Byte) : Event s (pollDeleteReply p body s).state :=
  withEntry_event fun _ _ _ _ => asCreator_event .pollDelete

theorem pollAdoptReply_event (p : Port) (body : List Byte) : Event s (pollAdoptReply p body s).state := by
  refine withEntry_event fun i b ha hb => ?_
  split
  · exact .pollAdopt ha hb
  · exact .nothing s

theorem snapReadReply_event (p : Port) (body : List Byte) : Event s (snapReadReply p body s).state := by
  refine withEntry_event fun i b _ _ => ?_
  split <;> exact .nothing s

theorem claimReply_event (p : Port) (body : List Byte) : Event s (claimReply p body s).state := by
  refine whenAttached_event fun ha => ?_
  split
  · exact .nothing s
  · next hb =>
    split_ifs with hc
    · exact .nothing s
    · split
      · exact .nothing s
      · exact .claim ha hb (by simpa using hc)

theorem withResv_event {p : Port} {body : List Byte} {f : ResvIx → Reservation → State → Reply}
    (h : ∀ (e : ResvIx) (a : Reservation), s.resvs[e] = some a → Event s (f e a s).state) :
    Event s (withResv p body f s).state := by
  refine whenAttached_event fun _ => ?_
  split
  · exact .nothing s
  · split
    · exact .nothing s
    · next a he =>
      split
      · exact h _ a he
      · exact .nothing s

theorem renewReply_event (p : Port) (body : List Byte) : Event s (renewReply p body s).state :=
  withResv_event fun _ _ he => .renew he

theorem releaseReply_event (p : Port) (body : List Byte) : Event s (releaseReply p body s).state :=
  withResv_event fun _ _ _ => .release

theorem claimQueryReply_event (p : Port) (body : List Byte) : Event s (claimQueryReply p body s).state := by
  refine whenAttached_event fun _ => ?_
  split <;> exact .nothing s

theorem fetchReply_event (p : Port) (body : List Byte) : Event s (fetchReply p body s).state := by
  refine whenAttached_event fun ha => ?_
  split
  · exact .nothing s
  · split
    · exact .nothing s
    · next i rest hq =>
      split
      · exact .nothing s
      · split
        · exact .fetch hq
        · exact storeFault_one_event ha (.inr (.inl (hq ▸ List.mem_cons_self)))

theorem notifySetReply_event (p : Port) (body : List Byte) : Event s (notifySetReply p body s).state := by
  refine whenAttached_event fun ha => ?_
  split
  · exact .nothing s
  · exact .notify ha fun _ => rfl

theorem notifyAckReply_event (p : Port) (body : List Byte) : Event s (notifyAckReply p body s).state := by
  refine whenAttached_event fun ha => ?_
  split
  · exact .nothing s
  · exact .notify ha fun _ => rfl

theorem attachReply_event (p : Port) (body : List Byte) : Event s (attachReply p body s).state := by
  unfold attachReply
  split_ifs with hb ha
  · exact .nothing s
  · exact .nothing s
  · exact .attach (by simpa using ha)

theorem detachReply_event (p : Port) (body : List Byte) : Event s (detachReply p body s).state := by
  refine whenAttached_event fun ha => ?_
  split
  · exact .nothing s
  · exact .sessionEnd ha

theorem statusReply_event (p : Port) (body : List Byte) : Event s (statusReply p body s).state := by
  unfold statusReply
  split <;> exact .nothing s

theorem proposeReply_event (p : Port) (body : List Byte) : Event s (proposeReply p body s).state := by
  refine whenAttached_event fun ha => ?_
  split
  · exact .nothing s
  · next c hb =>
    dsimp only
    split_ifs with _ _ hc
    · exact .nothing s
    · exact .nothing s
    · exact .proposeAlone hb
    · exact .propose ha hb (by simpa using hc)

theorem withProposal_event {p : Port} {body : List Byte} {f : Proposal → State → Reply}
    (h : ∀ pr : Proposal, s.proposal = some pr → Event s (f pr s).state) : Event s (withProposal p body f s).state := by
  refine whenAttached_event fun _ => ?_
  split
  · exact .nothing s
  · split
    · exact .nothing s
    · next pr hp =>
      split
      · exact h pr hp
      · exact .nothing s

theorem confirmReply_event (p : Port) (body : List Byte) : Event s (confirmReply p body s).state := by
  refine withProposal_event fun pr hp => ?_
  dsimp only
  split_ifs with hr _ hc
  · exact .nothing s
  · exact .nothing s
  · exact .consent hp
  · exact .confirm hp (by simpa using hr) (by simpa using hc)

theorem declineReply_event (p : Port) (body : List Byte) : Event s (declineReply p body s).state := by
  refine withProposal_event fun pr _ => ?_
  split
  · exact .nothing s
  · exact .decide (by decide)

theorem withdrawReply_event (p : Port) (body : List Byte) : Event s (withdrawReply p body s).state := by
  refine withProposal_event fun pr _ => ?_
  split
  · exact .nothing s
  · exact .decide (by decide)

theorem agreeQueryReply_event (p : Port) (body : List Byte) : Event s (agreeQueryReply p body s).state := by
  refine whenAttached_event fun _ => ?_
  split <;> exact .nothing s

/-! ### Pins -/

theorem execPrstAssert_carriedOut (p : Port) : CarriedOut s (execPrstAssert p s) := by
  have hq : Quiet s (modPort p PortIf.prstAssert s) := .modPort rfl (by simp [PortIf.prstAssert])
  unfold execPrstAssert
  split
  · next ha => exact hq.then (Event.sessionEnd (by rw [hq.attached, ha])).carriedOut
  · exact hq.carriedOut

theorem quiet_responseSent (p : Port) : Quiet s (modPort p PortIf.responseSent s) := by
  refine .modPort ?_ fun a ha => ?_ <;> unfold PortIf.responseSent at *
  · split <;> rfl
  · split at ha
    · cases ha
    · exact .inr ⟨a, ha, le_rfl⟩

theorem quiet_selAssert (p : Port) : Quiet s (modPort p PortIf.selAssert s) :=
  .modPort rfl fun a ha => .inr ⟨a, ha, le_rfl⟩

theorem quiet_selRelease (p : Port) : Quiet s (modPort p PortIf.selRelease s) :=
  .modPort rfl (by simp [PortIf.selRelease])

theorem quiet_prstDeassert (p : Port) : Quiet s (modPort p PortIf.prstDeassert s) :=
  .modPort rfl fun a ha => .inr ⟨a, ha, le_rfl⟩

/-! ### The sweep timer -/

/-- A command that names a turnover takes it on an idle engine (R82), or changes nothing. -/
theorem turnoverIf_carriedOut {b : Bool} :
    CarriedOut s (if s.idle && b then .next (turnoverNow s) else .next s) := by
  split
  · next h => exact (Event.turnover (by simpa [State.idle] using (Bool.and_eq_true_iff.mp h).1)).carriedOut
  · exact carriedOut_next s

theorem execSweepTimerExpiry_carriedOut : CarriedOut s (execSweepTimerExpiry s) := by
  unfold execSweepTimerExpiry
  split_ifs with hi he
  · exact (Event.turnover (by simpa [State.idle] using hi)).carriedOut
  · exact carriedOut_next s
  · exact (Event.overrun (by simpa [State.idle] using hi)).carriedOut

theorem execTurnover_carriedOut : CarriedOut s (execTurnover s) := by
  have h := turnoverIf_carriedOut (s := s) (b := true)
  rwa [Bool.and_true] at h

/-! ### The field line -/

theorem inStage_iff {st : Stage} : s.inStage st = true ↔ ∃ e : Exchange, s.exchange = some e ∧ e.stage = st := by
  unfold State.inStage
  cases s.exchange <;> simp

/-- In its new stage an exchange starts to count from 0. -/
theorem Exchange.leads_stage {e : Exchange} {st : Stage} {tx rx : List Bool} (h : st ≠ .preamble) :
    e.Leads { e with stage := st, count := 0, tx := tx, rx := rx } where
  origin := rfl
  phase := rfl
  op := rfl
  target := rfl
  span := rfl
  send := rfl
  preamble k := absurd k h
  range r := by
    obtain ⟨-, -, hsend, hpoll⟩ := r
    exact ⟨Nat.zero_le _, fun _ => Nat.zero_le _, hsend, hpoll⟩

/-- The bits sent and taken, and what the reply's bits show, are in no range. -/
theorem Exchange.leads_bits {e : Exchange} {b : Bool} {tx rx : List Bool} :
    e.Leads { e with replyStart := b, tx := tx, rx := rx } :=
  ⟨rfl, rfl, rfl, rfl, rfl, rfl, id, id⟩

theorem Exchange.leads_hold (e : Exchange) (c : HeldCause) : e.Leads (e.hold c) := by
  unfold Exchange.hold
  split
  · exact .refl e
  · refine ⟨rfl, rfl, rfl, rfl, rfl, rfl, nofun, fun r => ?_⟩
    obtain ⟨hcount, -, hsend, hpoll⟩ := r
    exact ⟨hcount, nofun, hsend, hpoll⟩

/-- A bit period is counted while the stage's threshold is not reached. -/
theorem Exchange.leads_count {e : Exchange} (h : e.stage ≠ .preamble → e.count + 1 ≠ 24) (hp : e.stage = .preamble → e.count + 1 ≠ 8) :
    e.Leads { e with count := e.count + 1 } where
  origin := rfl
  phase := rfl
  op := rfl
  target := rfl
  span := rfl
  send := rfl
  preamble := id
  range r := by
    obtain ⟨hcount, hpre, hsend, hpoll⟩ := r
    have hpre' : e.stage = .preamble → e.count + 1 ≤ 7 := fun k => by
      have := hp k
      have := hpre k
      omega
    refine ⟨?_, hpre', hsend, hpoll⟩
    change e.count + 1 ≤ 23
    by_cases k : e.stage = .preamble
    · exact (hpre' k).trans (by omega)
    · have := h k
      omega

theorem execPreambleEnd_carriedOut : CarriedOut s (execPreambleEnd s) := by
  unfold execPreambleEnd
  split
  · exact (Quiet.goOn (fun e _ => Exchange.leads_stage (by decide)) fun _ => Nat.zero_le _).carriedOut
  · exact carriedOut_next s

theorem execRequestFrameSent_carriedOut : CarriedOut s (execRequestFrameSent s) := by
  unfold execRequestFrameSent
  split
  · refine (Quiet.goOn (fun e _ => Exchange.leads_stage ?_) fun _ => Nat.zero_le _).carriedOut
    split <;> decide
  · exact carriedOut_next s

theorem quiet_replyStartBit : Quiet s (replyStartBit s) :=
  .goOn (fun _ _ => Exchange.leads_stage (by decide)) fun _ => Nat.zero_le _

theorem execReplyStartBit_carriedOut : CarriedOut s (execReplyStartBit s) := by
  unfold execReplyStartBit
  split
  · exact quiet_replyStartBit.carriedOut
  · exact carriedOut_next s

theorem execReplyStart_carriedOut : CarriedOut s (execReplyStart s) := by
  unfold execReplyStart
  split
  · exact (Quiet.goOn (fun _ _ => Exchange.leads_bits) fun _ => Nat.zero_le _).carriedOut
  · exact carriedOut_next s

theorem execHeldOutcome_carriedOut (c : HeldCause) : CarriedOut s (execHeldOutcome c s) := by
  unfold execHeldOutcome
  split
  · split
    · exact (Quiet.goOn (fun e _ => e.leads_hold c) fun _ => Nat.zero_le _).carriedOut
    · exact carriedOut_next s
  · exact carriedOut_next s

/-- What ends an exchange: it is the one in progress, and the words handed on are no more than it asked for (R50). -/
def EndsSoundly (f : Exchange → Option (Exchange × Outcome × List Word)) : Prop :=
  ∀ (e e' : Exchange) (o : Outcome) (words : List Word), f e = some (e', o, words) →
    e.Leads e' ∧ words.length ≤ e.span.count

theorem endWith_carriedOut {f : Exchange → Option (Exchange × Outcome × List Word)} (hf : EndsSoundly f) :
    CarriedOut s (endWith f s) := by
  unfold endWith
  split
  · next e' o words h =>
    obtain ⟨e, he, hfe⟩ := Option.bind_eq_some_iff.mp h
    obtain ⟨hl, hw⟩ := hf e e' o words hfe
    exact (Event.endExchange he hl hw).carriedOut
  · exact carriedOut_next s

theorem endsSoundly_windowExpiry : EndsSoundly windowExpiry := by
  intro e e' o words h
  unfold windowExpiry at h
  split at h
  · cases h; exact ⟨.refl e, Nat.zero_le _⟩
  · cases h

theorem endsSoundly_guardEnd : EndsSoundly guardEnd := by
  intro e e' o words h
  unfold guardEnd at h
  split at h
  · cases h; exact ⟨.refl e, Nat.zero_le _⟩
  · cases h

theorem endsSoundly_discardEnd : EndsSoundly discardEnd := by
  intro e e' o words h
  unfold discardEnd at h
  split at h
  · cases h; exact ⟨.refl e, Nat.zero_le _⟩
  · cases h; exact ⟨.refl e, Nat.zero_le _⟩
  all_goals cases h

theorem expected_le_count (e : Exchange) : e.expected ≤ e.span.count := by
  unfold Exchange.expected
  split
  · exact le_rfl
  · exact Nat.zero_le _

theorem keptWords_length_le (o : Outcome) (f : ReplyFrame) : (keptWords o f).length ≤ f.words.length := by
  cases o <;> simp [keptWords]

theorem endsSoundly_replyReceived (f : ReplyFrame) : EndsSoundly (replyReceived f) := by
  intro e e' o words h
  unfold replyReceived at h
  split at h
  · next hc =>
    cases h
    obtain ⟨-, hacc⟩ := hc
    simp only [acceptable, Bool.and_eq_true, beq_iff_eq, decide_eq_true_eq] at hacc
    obtain ⟨⟨-, hlen⟩, hexp⟩ := hacc
    refine ⟨Exchange.leads_bits, (keptWords_length_le _ f).trans ?_⟩
    rw [hlen]
    exact hexp.trans (expected_le_count e)
  · cases h

/-- An event that ends a frame sets the line monitor's run to 0 where it occurs (log 14). -/
theorem quiet_frameEnd {b : Bool} : Quiet s { s with run := if b then 0 else s.run } := by
  refine .setRun fun h => ?_
  split
  · exact Nat.zero_le _
  · exact h

theorem execReplyFrameReceived_carriedOut (f : ReplyFrame) : CarriedOut s (execReplyFrameReceived f s) :=
  quiet_frameEnd.then (endWith_carriedOut (endsSoundly_replyReceived f))

theorem execDiscardingEnd_carriedOut : CarriedOut s (execDiscardingEnd s) :=
  quiet_frameEnd.then (endWith_carriedOut endsSoundly_discardEnd)

theorem execLineFault_carriedOut : CarriedOut s (execLineFault s) := by
  unfold execLineFault
  split
  · exact carriedOut_next s
  · dsimp only
    split
    · next e he => exact (Event.lineFaultEnd (s := s) he).carriedOut
    · next he => exact (Event.lineFault (s := s) he).carriedOut

theorem execLineOk_carriedOut : CarriedOut s (execLineOk s) := by
  unfold execLineOk
  split
  · exact Event.lineOk.carriedOut
  · exact carriedOut_next s

/-! ### Commands -/

/-- Every command, in every state, is a quiet change, one event, and a quiet change. -/
theorem exec_carriedOut (c : Instr) (s : State) : CarriedOut s (exec c s) := by
  cases c with
  | powerOn => exact (Event.powerOn s).carriedOut
  | selAssert p => exact (quiet_selAssert p).carriedOut
  | selRelease p => exact (quiet_selRelease p).carriedOut
  | prstAssert p => exact execPrstAssert_carriedOut p
  | prstDeassert p => exact (quiet_prstDeassert p).carriedOut
  | responseSent p => exact (quiet_responseSent p).carriedOut
  | frame p bytes =>
    simp only [exec, execFrame]
    split
    · exact takeRequest_carriedOut (.nothing s)
    · exact carriedOut_next s
  | unknown p code seq body =>
    simp only [exec, execUnknown]
    split
    · exact takeRequest_carriedOut (.nothing s)
    · exact carriedOut_next s
  | attach p seq body => exact takeRequest_carriedOut (attachReply_event p body)
  | detach p seq body => exact takeRequest_carriedOut (detachReply_event p body)
  | status p seq body => exact takeRequest_carriedOut (statusReply_event p body)
  | post p seq body => exact takeRequest_carriedOut (postReply_event p body)
  | peek p seq body => exact takeRequest_carriedOut (peekReply_event p body)
  | cancel p seq body => exact takeRequest_carriedOut (cancelReply_event p body)
  | chainSet p seq body => exact takeRequest_carriedOut (chainSetReply_event p body)
  | chainPause p seq body => exact takeRequest_carriedOut (withChain_event fun _ _ _ => .chainPause)
  | chainGo p seq body => exact takeRequest_carriedOut (withChain_event fun _ _ _ => .chainGo)
  | chainRetry p seq body => exact takeRequest_carriedOut (chainRetryReply_event p body)
  | chainDrop p seq body => exact takeRequest_carriedOut (chainDropReply_event p body)
  | chainFlush p seq body => exact takeRequest_carriedOut (chainFlushReply_event p body)
  | chainQuery p seq body => exact takeRequest_carriedOut (chainQueryReply_event p body)
  | targetQuery p seq body => exact takeRequest_carriedOut (targetQueryReply_event p body)
  | pollCreate p seq body => exact takeRequest_carriedOut (pollCreateReply_event p body)
  | pollChange p seq body => exact takeRequest_carriedOut (pollChangeReply_event p body)
  | pollPause p seq body => exact takeRequest_carriedOut (pollPauseReply_event p body)
  | pollResume p seq body => exact takeRequest_carriedOut (pollResumeReply_event p body)
  | pollDelete p seq body => exact takeRequest_carriedOut (pollDeleteReply_event p body)
  | pollAdopt p seq body => exact takeRequest_carriedOut (pollAdoptReply_event p body)
  | snapRead p seq body => exact takeRequest_carriedOut (snapReadReply_event p body)
  | claim p seq body => exact takeRequest_carriedOut (claimReply_event p body)
  | renew p seq body => exact takeRequest_carriedOut (renewReply_event p body)
  | release p seq body => exact takeRequest_carriedOut (releaseReply_event p body)
  | claimQuery p seq body => exact takeRequest_carriedOut (claimQueryReply_event p body)
  | fetch p seq body => exact takeRequest_carriedOut (fetchReply_event p body)
  | notifySet p seq body => exact takeRequest_carriedOut (notifySetReply_event p body)
  | notifyAck p seq body => exact takeRequest_carriedOut (notifyAckReply_event p body)
  | propose p seq body => exact takeRequest_carriedOut (proposeReply_event p body)
  | confirm p seq body => exact takeRequest_carriedOut (confirmReply_event p body)
  | decline p seq body => exact takeRequest_carriedOut (declineReply_event p body)
  | withdraw p seq body => exact takeRequest_carriedOut (withdrawReply_event p body)
  | agreeQuery p seq body => exact takeRequest_carriedOut (agreeQueryReply_event p body)
  | sweepTimerExpiry => exact execSweepTimerExpiry_carriedOut
  | turnover => exact execTurnover_carriedOut
  | headDeadlineExpiry c => exact turnoverIf_carriedOut
  | leaseExpiry r => exact turnoverIf_carriedOut
  | proposalLapsed => exact turnoverIf_carriedOut
  | pollDue e => exact turnoverIf_carriedOut
  | preambleEnd => exact execPreambleEnd_carriedOut
  | requestFrameSent => exact execRequestFrameSent_carriedOut
  | replyWindowExpiry => exact endWith_carriedOut endsSoundly_windowExpiry
  | replyFrameReceived f => exact execReplyFrameReceived_carriedOut f
  | discardingEnd => exact execDiscardingEnd_carriedOut
  | broadcastGuardEnd => exact endWith_carriedOut endsSoundly_guardEnd
  | lineFault => exact execLineFault_carriedOut
  | lineOk => exact execLineOk_carriedOut
  | replyStartBit => exact execReplyStartBit_carriedOut
  | replyStart => exact execReplyStart_carriedOut
  | heldOutcome c => exact execHeldOutcome_carriedOut c

/-! ### Inputs -/

/-- A byte clocked at a port never adds an idle byte (R167). -/
theorem quiet_clock (p : Port) (b : Byte) : Quiet s (modPort p (fun q => q.clock b) s) := by
  refine .modPort ?_ fun a ha => ?_ <;> unfold PortIf.clock at *
  · split <;> rfl
  · split at ha
    · next x _ hx =>
      cases ha
      refine .inr ⟨x, hx, ?_⟩
      unfold Answer.next
      split
      · exact le_rfl
      · exact Nat.sub_le _ _
    · exact .inr ⟨a, ha, le_rfl⟩
    · exact .inr ⟨a, ha, le_rfl⟩

theorem clockByte_carriedOut (p : Port) (b : Byte) : CarriedOut s (clockByte p b s) := by
  unfold clockByte
  split
  · exact carriedOut_next s
  · refine (quiet_clock p b).then ?_
    dsimp only
    split
    · split
      · exact exec_carriedOut _ _
      · exact carriedOut_next _
    · split
      · exact exec_carriedOut (.responseSent p) _
      · exact carriedOut_next _

theorem runAfter_le {d : Drive} {n : Nat} : runAfter d n ≤ 64 := by
  cases d with
  | released => exact Nat.zero_le _
  | driven _ => exact Nat.min_le_left _ _

theorem watched_carriedOut {d : Drive} {k : State → Host.Outcome State Fault Refusal}
    (h : CarriedOut { s with run := runAfter d s.run } (k { s with run := runAfter d s.run })) :
    CarriedOut s (watched d k s) := by
  unfold watched
  split
  · exact exec_carriedOut .lineFault s
  · exact (Quiet.setRun fun _ => runAfter_le).then h

theorem quiet_countBit
    (h : ∀ e : Exchange, s.exchange = some e →
      (e.stage ≠ .preamble → e.count + 1 ≠ 24) ∧ (e.stage = .preamble → e.count + 1 ≠ 8)) :
    Quiet s (countBit s) :=
  .modExchange fun e he => Exchange.leads_count (h e he).1 (h e he).2

theorem Exchange.leads_zero (e : Exchange) : e.Leads { e with count := 0 } where
  origin := rfl
  phase := rfl
  op := rfl
  target := rfl
  span := rfl
  send := rfl
  preamble := id
  range r := by
    obtain ⟨-, -, hsend, hpoll⟩ := r
    exact ⟨Nat.zero_le _, fun _ => Nat.zero_le _, hsend, hpoll⟩

section
variable {d : Drive} {b : Bool} {e : Exchange} (he : s.exchange = some e)
include he

theorem preambleBit_carriedOut (hs : e.stage = .preamble) : CarriedOut s (preambleBit d e s) := by
  cases d with
  | driven b => exact (Quiet.modExchange fun e' _ => Exchange.leads_zero e').carriedOut
  | released =>
    simp only [preambleBit]
    split
    · exact exec_carriedOut .preambleEnd s
    · next hc =>
      refine (quiet_countBit fun e' he' => ?_).carriedOut
      obtain rfl := Option.some.inj (he.symm.trans he')
      exact ⟨fun h => absurd hs h, fun _ => hc⟩

/-- A count below the threshold of WINDOW and GUARD goes on (R49, R53). -/
theorem quiet_countBit_of_ne (hs : e.stage ≠ .preamble) (hc : e.count + 1 ≠ 24) : Quiet s (countBit s) := by
  refine quiet_countBit fun e' he' => ?_
  obtain rfl := Option.some.inj (he.symm.trans he')
  exact ⟨fun _ => hc, fun h => absurd h hs⟩

omit he in
theorem sendBit_carriedOut : CarriedOut s (sendBit e s) := by
  unfold sendBit
  split
  · exact (Quiet.goOn (fun _ _ => Exchange.leads_bits) fun _ => Nat.zero_le _).carriedOut
  · exact exec_carriedOut .requestFrameSent s

theorem windowBit_carriedOut (hs : e.stage = .window) : CarriedOut s (windowBit d e s) := by
  unfold windowBit
  split
  · split
    · exact quiet_replyStartBit.then (exec_carriedOut (.heldOutcome .badDelimiter) _)
    · exact exec_carriedOut .replyStartBit s
  · split
    · exact (Quiet.setRun fun _ => Nat.zero_le _).then (exec_carriedOut .replyWindowExpiry _)
    · next hc =>
      exact ((quiet_countBit_of_ne he (by simp [hs]) hc).trans (.setRun fun _ => Nat.zero_le _)).carriedOut

omit he in
theorem replyBit_carriedOut : CarriedOut s (replyBit b e s) := by
  have hq : Quiet s { modExchange (fun x => { x with rx := e.rx ++ [b] }) s with run := 0 } :=
    .goOn (fun _ _ => Exchange.leads_bits) fun _ => Nat.zero_le _
  unfold replyBit
  dsimp only
  split_ifs
  · exact exec_carriedOut (.heldOutcome .badDelimiter) s
  · exact hq.then (exec_carriedOut .replyStart _)
  · exact hq.carriedOut
  · exact hq.carriedOut
  · exact hq.then (exec_carriedOut (.heldOutcome (.countByte _)) _)
  · exact hq.carriedOut
  · exact hq.then (exec_carriedOut (.replyFrameReceived _) _)
  · exact hq.carriedOut

theorem guardBit_carriedOut (hs : e.stage = .guard) : CarriedOut s (guardBit e s) := by
  unfold guardBit
  split
  · exact exec_carriedOut .broadcastGuardEnd s
  · next hc => exact (quiet_countBit_of_ne he (by simp [hs]) hc).carriedOut

end

theorem fieldBit_carriedOut (d : Drive) : CarriedOut s (fieldBit d s) := by
  unfold fieldBit
  split
  · split
    · exact (Quiet.setReleased (fun _ => runAfter_le) fun _ => Nat.zero_le _).carriedOut
    · split
      · exact exec_carriedOut .lineOk s
      · next hc =>
        refine (Quiet.setReleased (fun _ => Nat.zero_le _) fun h => ?_).carriedOut
        change ¬ s.releasedCount + 1 = 256 at hc
        omega
  · split
    · exact watched_carriedOut (carriedOut_next _)
    · next e he =>
      split
      · next hs => exact watched_carriedOut (preambleBit_carriedOut he hs)
      · exact sendBit_carriedOut
      · next hs => exact windowBit_carriedOut he hs
      · split
        · exact exec_carriedOut .discardingEnd s
        · exact replyBit_carriedOut
      · split
        · exact exec_carriedOut .discardingEnd s
        · exact watched_carriedOut (carriedOut_next _)
      · next hs => exact watched_carriedOut (guardBit_carriedOut he hs)

theorem wireStep_carriedOut (w : WireEvent) : CarriedOut s (wireStep w s) := by
  cases w with
  | byteIn p b => exact clockByte_carriedOut p b
  | bit d => exact fieldBit_carriedOut d
  | upset i stored => exact (Event.upset i stored).carriedOut

/-! ### Steps -/

/-- A step takes a command or an input off its queue, and then is a quiet change, one event, and a quiet change. -/
theorem step_carries (h : step s = .next t) :
    ∃ (p : List Instr) (w : List WireEvent), Carries { s with pending := p, wires := w } t := by
  unfold step at h
  split at h
  · next c rest _ =>
    obtain ⟨t', ht, hc⟩ := exec_carriedOut c { s with pending := rest }
    cases h.symm.trans ht
    exact ⟨rest, s.wires, hc⟩
  · split at h
    · next w rest _ =>
      obtain ⟨t', ht, hc⟩ := wireStep_carriedOut (s := { s with wires := rest }) w
      cases h.symm.trans ht
      exact ⟨s.pending, rest, hc⟩
    · cases h
      exact ⟨s.pending, s.wires, (Quiet.refl s).carries⟩

/-- A property of the part that does not read the queues, and that quiet changes and events keep, is kept by every step. -/
theorem step_keeps {I : State → Prop} (hpop : ∀ (s : State) (p : List Instr) (w : List WireEvent),
      I s → I { s with pending := p, wires := w })
    (hquiet : ∀ s t : State, Quiet s t → I s → I t) (hevent : ∀ s t : State, Event s t → I s → I t)
    (hs : I s) (h : step s = .next t) : I t := by
  obtain ⟨p, w, u, v, hu, he, hv⟩ := step_carries h
  exact hquiet _ _ hv (hevent _ _ he (hquiet _ _ hu (hpop s p w hs)))

end Sys2Proof.Machine

/-! PROOF. Frames of the composed operations, and the shapes of the compound ones. `StoreFrame` is the frame of everything that moves
records between slots, chains and report queues; `DecisionFrame` that of a decision. The offer of the bus, the turnover and the end
of an exchange keep what each of their parts keeps. -/

namespace Sys2Proof.Machine

/-! ### The store and the reports -/

/-- `t` differs from `s` at most in slots, chains and reports. -/
def StoreFrame (s t : State) : Prop := t = { s with slots := t.slots, chains := t.chains, reports := t.reports }

namespace StoreFrame

variable {s t u : State}

theorem refl (s : State) : StoreFrame s s := rfl

theorem trans (h : StoreFrame s t) (k : StoreFrame t u) : StoreFrame s u := by
  unfold StoreFrame at *
  rw [k, h]

theorem attached (h : StoreFrame s t) (p : Port) : t.attached p = s.attached p := by rw [h]; rfl
theorem ports (h : StoreFrame s t) : t.ports = s.ports := by rw [h]
theorem quotas (h : StoreFrame s t) : t.quotas = s.quotas := by rw [h]
theorem grant (h : StoreFrame s t) : t.grant = s.grant := by rw [h]
theorem exchange (h : StoreFrame s t) : t.exchange = s.exchange := by rw [h]
theorem line (h : StoreFrame s t) : t.line = s.line := by rw [h]
theorem run (h : StoreFrame s t) : t.run = s.run := by rw [h]
theorem releasedCount (h : StoreFrame s t) : t.releasedCount = s.releasedCount := by rw [h]
theorem targets (h : StoreFrame s t) : t.targets = s.targets := by rw [h]
theorem timerLength (h : StoreFrame s t) : t.timerLength = s.timerLength := by rw [h]
theorem expired (h : StoreFrame s t) : t.expired = s.expired := by rw [h]
theorem sweep (h : StoreFrame s t) : t.sweep = s.sweep := by rw [h]
theorem sweepLength (h : StoreFrame s t) : t.sweepLength = s.sweepLength := by rw [h]
theorem nextSweepLength (h : StoreFrame s t) : t.nextSweepLength = s.nextSweepLength := by rw [h]
theorem pollWindow (h : StoreFrame s t) : t.pollWindow = s.pollWindow := by rw [h]
theorem nextPollWindow (h : StoreFrame s t) : t.nextPollWindow = s.nextPollWindow := by rw [h]
theorem pollsRun (h : StoreFrame s t) : t.pollsRun = s.pollsRun := by rw [h]
theorem phase (h : StoreFrame s t) : t.phase = s.phase := by rw [h]
theorem overruns (h : StoreFrame s t) : t.overruns = s.overruns := by rw [h]
theorem sched (h : StoreFrame s t) : t.sched = s.sched := by rw [h]
theorem polls (h : StoreFrame s t) : t.polls = s.polls := by rw [h]
theorem pollPending (h : StoreFrame s t) : t.pollPending = s.pollPending := by rw [h]
theorem resvs (h : StoreFrame s t) : t.resvs = s.resvs := by rw [h]
theorem proposal (h : StoreFrame s t) : t.proposal = s.proposal := by rw [h]
theorem pending (h : StoreFrame s t) : t.pending = s.pending := by rw [h]
theorem wires (h : StoreFrame s t) : t.wires = s.wires := by rw [h]

/-- A fold of steps that keep the frame keeps it. -/
theorem foldl {β : Type} {f : State → β → State} (h : ∀ s b, StoreFrame s (f s b)) (l : List β) (s : State) :
    StoreFrame s (l.foldl f s) := by
  induction l generalizing s with
  | nil => exact .refl s
  | cons b l ih => exact (h s b).trans (ih (f s b))

end StoreFrame

section
variable (s : State)

theorem store_mark (d : Deferred) (p : Port) : StoreFrame s (mark d p s) := by
  unfold mark; split <;> rfl

theorem store_raise (c : Cause) (p : Port) : StoreFrame s (raise c p s) := by
  unfold raise; split <;> rfl

theorem store_raiseAll (c : Cause) : StoreFrame s (raiseAll c s) := rfl

theorem store_clearMarks : StoreFrame s (clearMarks s) := rfl

theorem store_restoreMarks (e : Marks) : StoreFrame s (restoreMarks e s) := rfl

theorem store_pendMarks (e : Marks) : StoreFrame s (pendMarks e s) := rfl

theorem store_putRecord (i : SlotIx) (r : Record) : StoreFrame s (putRecord i r s) := rfl

theorem store_freeSlot (i : SlotIx) : StoreFrame s (freeSlot i s) := rfl

theorem store_unlist (i : SlotIx) : StoreFrame s (unlist i s) := by simp only [StoreFrame, unlist]

theorem store_setCancelPending (i : SlotIx) (r : Record) : StoreFrame s (setCancelPending i r s) := by
  unfold setCancelPending; split <;> rfl

theorem store_haltHead (c : ChainIx) (i : SlotIx) (r : Record) (why : HaltReason) : StoreFrame s (haltHead c i r why s) :=
  (store_putRecord s i _).trans (store_mark _ .halt _)

theorem store_enqueueNote (p : Port) (i : SlotIx) : StoreFrame s (enqueueNote p i s) :=
  StoreFrame.trans (t := { s with reports := modAt s.reports p fun q => { q with queue := q.queue ++ [i] } }) rfl
    (store_mark _ .report p)

theorem store_retire (i : SlotIx) (r : Record) (k : EndKind) : StoreFrame s (retire i r k s) := by
  have h := (store_unlist s i).trans
    (store_putRecord (unlist i s) i
      { r with state := .done, endKind := some k, completionSweep := some (unlist i s).sweep })
  unfold retire
  dsimp only
  split
  · exact h.trans (store_enqueueNote _ _ i)
  · exact h

theorem store_retireSlot (i : SlotIx) (k : EndKind) : StoreFrame s (retireSlot i k s) := by
  unfold retireSlot; split
  · exact store_retire s i _ k
  · exact .refl s

theorem store_retireAll (k : EndKind) (is : List SlotIx) : StoreFrame s (retireAll k is s) :=
  .foldl (fun s i => store_retireSlot s i k) is s

theorem store_damageSlot (i : SlotIx) : StoreFrame s (damageSlot i s) := by
  unfold damageSlot; split
  · exact (store_unlist s i).trans (store_putRecord _ i _)
  · exact .refl s

theorem store_disposeDamaged (i : SlotIx) : StoreFrame s (disposeDamaged s i) := by
  unfold disposeDamaged
  split
  · exact .refl s
  · split
    · split
      · split
        · exact store_retire s i _ .damaged
        · exact store_freeSlot s i
      · exact store_freeSlot s i
    · exact .refl s

theorem store_checkDeadline (c : ChainIx) : StoreFrame s (checkDeadline s c) := by
  unfold checkDeadline; split
  · split
    · exact store_haltHead s c _ _ .expired
    · exact .refl s
  · exact .refl s

theorem store_leaveCompleted (i : SlotIx) (r : Record) (o : Outcome) : StoreFrame s (leaveCompleted i r o s) := by
  unfold leaveCompleted; split
  · exact (store_unlist s i).trans (store_freeSlot _ i)
  · exact store_retire s i r .completed

theorem store_skipGroup (r : Record) (o : Outcome) : StoreFrame s (skipGroup r o s) := by
  unfold skipGroup; split
  · exact store_retireAll s .skipped _
  · exact .refl s

theorem store_flushChain (c : ChainIx) : StoreFrame s (flushChain c s).2.2 := by
  unfold flushChain
  split
  · split
    · exact (store_setCancelPending s _ _).trans (store_retireAll _ .cancelled _)
    · exact store_retireAll s .cancelled _
  · exact .refl s

theorem store_raiseProposal (pr : Proposal) : StoreFrame s (raiseProposal pr s) := by
  refine .foldl (fun s q => ?_) _ s
  split
  · exact store_raise s .proposal q
  · exact .refl s

end

/-! ### Decisions -/

/-- `t` keeps what no decision changes: ports, exchange, line state, sweep, polls, pending list and leases. -/
structure DecisionFrame (s t : State) : Prop where
  ports : t.ports = s.ports
  exchange : t.exchange = s.exchange
  line : t.line = s.line
  expired : t.expired = s.expired
  targets : t.targets = s.targets
  timerLength : t.timerLength = s.timerLength
  sweepLength : t.sweepLength = s.sweepLength
  pollWindow : t.pollWindow = s.pollWindow
  pollsRun : t.pollsRun = s.pollsRun
  phase : t.phase = s.phase
  overruns : t.overruns = s.overruns
  polls : t.polls = s.polls
  pollPending : t.pollPending = s.pollPending
  resvs : t.resvs = s.resvs
  pending : t.pending = s.pending
  wires : t.wires = s.wires

section
variable (s : State)

/-- RESTART is the disposal of every slot, and then a RUNNING scheduler (R161). -/
theorem applyChange_restart :
    applyChange .restart s = { (List.finRange 128).foldl disposeDamaged s with sched := .running } := rfl

theorem decision_applyChange (c : Change) : DecisionFrame s (applyChange c s) := by
  cases c
  case restart =>
    have h := StoreFrame.foldl store_disposeDamaged (List.finRange 128) s
    rw [applyChange_restart]
    generalize (List.finRange 128).foldl disposeDamaged s = u at h
    rw [h]
    constructor <;> rfl
  all_goals constructor <;> rfl

theorem decision_decideProposal (pr : Proposal) (v : Verdict) : DecisionFrame s (decideProposal pr v s) := by
  have h : DecisionFrame s (if v = .adopted then applyChange pr.change s else s) := by
    split
    · exact decision_applyChange s _
    · constructor <;> rfl
  exact { h with }

theorem decideProposal_proposal (pr : Proposal) (v : Verdict) : (decideProposal pr v s).proposal = none := rfl

theorem decision_leaveProposal (p : Port) : DecisionFrame s (leaveProposal p s) := by
  unfold leaveProposal
  split
  · constructor <;> rfl
  · split
    · constructor <;> rfl
    · dsimp only
      split_ifs
      · exact decision_decideProposal s _ _
      · exact decision_decideProposal s _ _
      · constructor <;> rfl

theorem decision_lowerWindow : DecisionFrame s (lowerWindow s) := by
  unfold lowerWindow
  split
  · constructor <;> rfl
  · dsimp only
    split
    · exact decision_decideProposal s _ .lapsed
    · constructor <;> rfl

end

/-- The session end of port `p` in every block but the Agreement Unit (R17, R42, R114, R126, R141). -/
def leaveBlocks (p : Port) (s : State) : State :=
  { s with
    ports := modAt s.ports p fun q => { q with attached := false }
    slots := tab fun i => s.slots[i].sessionEnd p
    chains := tab fun c => if chainPort c = p then Chain.powerOn else s.chains[c]
    grant := s.grant.filter fun g => chainPort g.chain != p
    reports := modAt s.reports p fun _ => Report.powerOn
    resvs := tab fun e => s.resvs[e].filter fun r => r.owner != p
    polls := tab fun i => s.polls[i].sessionEnd p }

theorem sessionEnd_eq (p : Port) (s : State) : sessionEnd p s = leaveProposal p (leaveBlocks p s) := rfl

/-! ### What the compound operations keep -/

variable {s : State} {I J : State → Prop}

theorem foldl_keeps {β : Type} {f : State → β → State} (h : ∀ s b, I s → I (f s b)) (l : List β) (hs : I s) : I (l.foldl f s) :=
  List.foldlRecOn l f hs fun s hs b _ => h s b hs

theorem phaseTest_keeps (hphase : ∀ s, I s → I { s with phase := .chain }) (hs : I s) : I (phaseTest s) := by
  unfold phaseTest
  split
  · exact hphase s hs
  · exact hs

theorem offerChains_keeps (hgrant : ∀ s c, s.mayOffer = true → s.choice = some c → I s → I (tryStart c (grantTo c s)))
    (n : Nat) (hs : I s) : I (offerChains n s) := by
  induction n generalizing s with
  | zero => exact hs
  | succ n ih =>
    unfold offerChains
    split
    · next hm =>
      split
      · exact hs
      · next c hc => exact ih (hgrant s c hm hc hs)
    · exact hs

/-- An offer in the poll phase: past the skips, a poll's start, or the arbiter when nothing is left to poll (R87, R88). -/
def offerPolls (s : State) : State :=
  if (phaseTest (skipSilent s)).phase = .poll then startPoll (phaseTest (skipSilent s)) else offerChains 17 (phaseTest (skipSilent s))

/-- The offer by the phase that its first test leaves (R86). -/
theorem offerBus_eq : offerBus s =
    if s.mayOffer = true then
      if (phaseTest s).phase = .poll then offerPolls (phaseTest s) else offerChains 17 (phaseTest s)
    else phaseTest s := by
  simp only [offerBus, phaseTest_mayOffer, offerPolls]

theorem skipSilent_mayOffer : (skipSilent s).mayOffer = s.mayOffer := rfl

/-- Polls are left to run in the poll phase (R88). -/
def State.pollsLeft (s : State) : Prop := s.phase = .poll ∧ s.pollPending ≠ [] ∧ s.pollsRun < s.pollWindow

theorem phaseTest_pollsLeft (hx : s.exchange = none) (hp : (phaseTest s).phase = .poll) : (phaseTest s).pollsLeft := by
  unfold phaseTest at hp ⊢
  split_ifs at hp ⊢ with h
  simp only [State.idle, hx, hp, Option.isNone_none, not_and, not_or, not_le, true_implies] at h
  exact ⟨hp, h⟩

theorem mayOffer_idle (h : s.mayOffer = true) : s.exchange = none := (mayOffer_iff.mp h).1

/-- The offer of the bus keeps what its parts keep: the end of the poll phase, the skips, a poll's start, a grant with its try start
(R86 to R90). -/
theorem offerBus_keeps (hphase : ∀ s, I s → I { s with phase := .chain }) (hskip : ∀ s, I s → I (skipSilent s))
    (hpoll : ∀ s, s.mayOffer = true → s.pollsLeft → I s → I (startPoll s))
    (hgrant : ∀ s c, s.mayOffer = true → s.choice = some c → I s → I (tryStart c (grantTo c s))) (hs : I s) :
    I (offerBus s) := by
  have htest : I (phaseTest s) := phaseTest_keeps hphase hs
  have hskipped : I (phaseTest (skipSilent (phaseTest s))) := phaseTest_keeps hphase (hskip _ htest)
  have hchains : ∀ u, I u → I (offerChains 17 u) := fun u => offerChains_keeps hgrant 17
  rw [offerBus_eq]
  by_cases hm : s.mayOffer = true
  · rw [if_pos hm]
    by_cases hp : (phaseTest s).phase = .poll
    · rw [if_pos hp, offerPolls]
      by_cases hq : (phaseTest (skipSilent (phaseTest s))).phase = .poll
      · rw [if_pos hq]
        have hm' : (skipSilent (phaseTest s)).mayOffer = true := by rw [skipSilent_mayOffer, phaseTest_mayOffer, hm]
        exact hpoll _ (by rw [phaseTest_mayOffer, hm']) (phaseTest_pollsLeft (mayOffer_idle hm') hq) hskipped
      · rw [if_neg hq]
        exact hchains _ hskipped
    · rw [if_neg hp]
      exact hchains _ htest
  · rw [if_neg hm]
    exact htest

/-- The reactions in their order (R84). -/
theorem turnoverReactions_eq (m : Marks) (s : State) :
    turnoverReactions m s =
      lowerWindow ((List.finRange 8).foldl lowerLease
        ((List.finRange 16).foldl checkDeadline (pollTurnover (pendMarks m s)))) := by
  simp only [turnoverReactions]

/-- The reactions of a turnover keep what each block's reaction keeps (R83, R84). -/
theorem turnoverReactions_keeps {m : Marks} (hsweep : ∀ s, I s → I (advanceSweep s)) (hmarks : ∀ s, I s → I (pendMarks m s))
    (hpoll : ∀ s, I s → I (pollTurnover s)) (hdeadline : ∀ s c, I s → I (checkDeadline s c))
    (hlease : ∀ s e, I s → I (lowerLease s e)) (hwindow : ∀ s, I s → I (lowerWindow s)) (hs : I s) :
    I (turnoverReactions m (advanceSweep s)) := by
  rw [turnoverReactions_eq]
  have hpolled := hpoll _ (hmarks _ (hsweep s hs))
  have hlate := foldl_keeps hdeadline (List.finRange 16) hpolled
  have hleased := foldl_keeps hlease (List.finRange 8) hlate
  exact hwindow _ hleased

/-- The end of an exchange hands its outcome on, and then is a turnover that an expired timer waited for, or an offer (R54, R82). -/
theorem afterExchange_keeps {m : Marks} (hdrained : I s → I (drained s))
    (hturn : ∀ s, s.exchange = none → I s → J (turnoverEvent m s)) (hoffer : ∀ s, I s → J (offerBus (restoreMarks m s)))
    (hs : I s) : J (afterExchange m s) := by
  unfold afterExchange
  dsimp only
  split
  · next h =>
    refine hturn _ ?_ (hdrained hs)
    have := (Bool.and_eq_true_iff.mp h).2
    simpa [State.idle] using this
  · exact hoffer _ (hdrained hs)

end Sys2Proof.Machine

/-! PROOF. Every command is carried out, and no command touches the queues (O2). -/

namespace Sys2Proof.Machine

/-- The commands and the inputs that wait are the same. -/
def SameQueues (s t : State) : Prop := t.pending = s.pending ∧ t.wires = s.wires

namespace SameQueues

variable {s t u : State}

theorem trans (h : SameQueues s t) (k : SameQueues t u) : SameQueues s u := ⟨k.1.trans h.1, k.2.trans h.2⟩

theorem ofWork (h : WorkFrame s t) : SameQueues s t := ⟨h.pending, h.wires⟩

theorem ofHost (h : HostFrame s t) : SameQueues s t := ⟨h.pending, h.wires⟩

theorem ofStore (h : StoreFrame s t) : SameQueues s t := ⟨h.pending, h.wires⟩

theorem ofDecision (h : DecisionFrame s t) : SameQueues s t := ⟨h.pending, h.wires⟩

theorem offerBus (h : SameQueues s t) : SameQueues s (offerBus t) := h.trans (ofWork (work_offerBus t))

end SameQueues

variable {s t : State}

theorem Quiet.sameQueues (h : Quiet s t) : SameQueues s t := ⟨by rw [h.frame], by rw [h.frame]⟩

theorem sameQueues_acceptPropose (p : Port) (c : Change) : SameQueues s (acceptPropose p c s) := by
  have h := store_raiseProposal
    { s with lastNumber := (newProposal p c s).number, proposal := some (newProposal p c s) } (newProposal p c s)
  exact ⟨h.pending, h.wires⟩

theorem sameQueues_consent (pr : Proposal) : SameQueues s (decideByConsent pr s) :=
  (SameQueues.ofDecision (decision_decideProposal s pr _)).offerBus

theorem Event.sameQueues (h : Event s t) : SameQueues s t := by
  cases h with
  | nothing => exact ⟨rfl, rfl⟩
  | powerOn => exact ⟨rfl, rfl⟩
  | attach => exact ⟨rfl, rfl⟩
  | @sessionEnd p ha =>
    have h := decision_leaveProposal (leaveBlocks p s) p
    exact SameQueues.offerBus ⟨h.pending, h.wires⟩
  | post => exact (SameQueues.ofWork ((work_putRecord s _ _).trans (work_appendChain _ _ _))).offerBus
  | storeFault =>
    exact .ofWork ((work_foldl s work_damageSlot _).trans (work_storeFault _))
  | retire => exact (SameQueues.ofWork (work_retire s _ _ _)).offerBus
  | cancelActive => exact .ofWork (work_setCancelPending s _ _)
  | flush => exact .ofStore (store_flushChain s _)
  | chainSet => exact ⟨rfl, rfl⟩
  | chainPause => exact ⟨rfl, rfl⟩
  | chainGo => exact SameQueues.offerBus ⟨rfl, rfl⟩
  | chainRetry => exact (SameQueues.ofWork (work_putRecord s _ _)).offerBus
  | pollCreate => exact ⟨rfl, rfl⟩
  | pollChange => exact ⟨rfl, rfl⟩
  | pollPause => exact SameQueues.trans (t := { modPoll _ _ s with pollPending := _ }) ⟨rfl, rfl⟩ (.ofWork (work_phaseTest _))
  | pollResume => exact ⟨rfl, rfl⟩
  | pollDelete => exact SameQueues.trans (t := { modPoll _ _ s with pollPending := _ }) ⟨rfl, rfl⟩ (.ofWork (work_phaseTest _))
  | pollAdopt => exact ⟨rfl, rfl⟩
  | claim => exact ⟨rfl, rfl⟩
  | renew => exact ⟨rfl, rfl⟩
  | release => exact ⟨rfl, rfl⟩
  | fetch => exact .ofStore ((store_unlist s _).trans (store_freeSlot _ _))
  | notify => exact ⟨rfl, rfl⟩
  | propose => exact sameQueues_acceptPropose _ _
  | proposeAlone => exact (sameQueues_acceptPropose _ _).trans (sameQueues_consent _)
  | confirm => exact ⟨rfl, rfl⟩
  | consent => exact sameQueues_consent _
  | decide => exact .ofDecision (decision_decideProposal s _ _)
  | overrun => exact ⟨rfl, rfl⟩
  | turnover => exact .ofHost (host_turnoverNow s)
  | endExchange => exact .ofHost (host_endExchange s _ _ _)
  | lineFault => exact ⟨rfl, rfl⟩
  | lineFaultEnd =>
    have h := host_endExchange (enterLineFault s)
    exact .ofHost ⟨(h _ _ _).ports, (h _ _ _).fresh, (h _ _ _).pending, (h _ _ _).wires⟩
  | lineOk => exact SameQueues.offerBus ⟨rfl, rfl⟩
  | upset i stored =>
    unfold upsetSlot
    split <;> exact ⟨rfl, rfl⟩

theorem Carries.sameQueues (h : Carries s t) : SameQueues s t := by
  obtain ⟨u, v, hu, he, hv⟩ := h
  exact (hu.sameQueues.trans he.sameQueues).trans hv.sameQueues

/-- Settles O2: what a command is made of keeps both queues. -/
theorem everyCommandIsCarriedOut : Obligations.EveryCommandIsCarriedOut := by
  unfold Obligations.EveryCommandIsCarriedOut
  intro c s
  obtain ⟨t, ht, hc⟩ := exec_carriedOut c s
  exact ⟨t, ht, hc.sameQueues⟩

end Sys2Proof.Machine

/-! PROOF. The reservations of different ports stay apart, and a held lease has time left (O52). -/

namespace Sys2Proof.Machine

variable {s t : State}

/-- The invariant reads the Reservation Table alone. -/
theorem State.ClaimsSound.congr (h : s.ClaimsSound) (hr : t.resvs = s.resvs) : t.ClaimsSound := by
  obtain ⟨hd, hl⟩ := h
  constructor <;> rw [hr]
  · exact hd
  · exact hl

/-- A table whose held entries are entries of `s` with the same owner and pattern, or a smaller lease left, stays sound. -/
theorem State.ClaimsSound.shrink (h : s.ClaimsSound)
    (hr : ∀ (e : ResvIx) (a : Reservation), t.resvs[e] = some a →
      ∃ b : Reservation, s.resvs[e] = some b ∧ a.owner = b.owner ∧ a.base = b.base ∧ a.mask = b.mask ∧
        1 ≤ a.remaining ∧ a.remaining ≤ a.lease ∧ a.lease = b.lease) : t.ClaimsSound where
  disjoint e f a b ha hb hab x hx := by
    obtain ⟨a', ha', howna, hbasea, hmaska, -⟩ := hr e a ha
    obtain ⟨b', hb', hownb, hbaseb, hmaskb, -⟩ := hr f b hb
    rw [howna, hownb] at hab
    rw [hbasea, hmaska, hbaseb, hmaskb] at hx
    exact h.disjoint e f a' b' ha' hb' hab x hx
  leased e a ha := by
    obtain ⟨b, hb, -, -, -, hpos, hle, hlease⟩ := hr e a ha
    exact ⟨hpos, hle, hlease ▸ (h.leased e b hb).2.2⟩

theorem setResv_get {e f : ResvIx} {r : Option Reservation} : (setResv e r s).resvs[f] = if f = e then r else s.resvs[f] := by
  unfold setResv
  dsimp only
  rw [modAt_get]

/-- Freeing an entry. -/
theorem claims_free (h : s.ClaimsSound) (e : ResvIx) : (setResv e none s).ClaimsSound := by
  refine h.shrink fun f a ha => ?_
  rw [setResv_get] at ha
  split at ha
  · cases ha
  · obtain ⟨h1, h2, -⟩ := h.leased f a ha
    exact ⟨a, ha, rfl, rfl, rfl, h1, h2, rfl⟩

/-- Another count of turnovers left in a held lease. -/
theorem claims_remaining (h : s.ClaimsSound) {e : ResvIx} {a : Reservation} {n : Nat} (ha : s.resvs[e] = some a)
    (hn : 1 ≤ n ∧ n ≤ a.lease) : (setResv e (some { a with remaining := n }) s).ClaimsSound := by
  refine h.shrink fun f b hb => ?_
  rw [setResv_get] at hb
  split at hb
  · next hfe => cases hb; exact ⟨a, hfe ▸ ha, rfl, rfl, rfl, hn.1, hn.2, rfl⟩
  · obtain ⟨h1, h2, -⟩ := h.leased f b hb
    exact ⟨b, hb, rfl, rfl, rfl, h1, h2, rfl⟩

theorem mem_addresses {a : BitVec 6} (h : a ≠ 0) : a ∈ addresses := by
  have hpos : a.toNat ≠ 0 := fun h0 => h (BitVec.eq_of_toNat_eq (by simpa using h0))
  refine List.mem_map.mpr ⟨a.toNat - 1, List.mem_range.mpr (by omega), ?_⟩
  rw [Nat.sub_add_cancel (by omega), BitVec.ofNat_toNat, BitVec.setWidth_eq]

theorem matches6_ne_zero {base mask a : BitVec 6} (h : matches6 base mask a = true) : a ≠ 0 := (matches6_iff.mp h).1

/-- Check 3 of R118: some entry of another port matches an address that the claimed pattern matches. -/
theorem conflicts_iff {p : Port} {base mask : BitVec 6} : s.conflicts p base mask = true ↔
    ∃ (e : ResvIx) (a : Reservation), s.resvs[e] = some a ∧ a.owner ≠ p ∧
      ∃ x : BitVec 6, matches6 base mask x = true ∧ matches6 a.base a.mask x = true := by
  refine otherClaim_iff_of fun a => ?_
  simp only [List.any_eq_true, Bool.and_eq_true]
  exact ⟨fun ⟨x, _, hx⟩ => ⟨x, hx⟩, fun ⟨x, hx⟩ => ⟨x, mem_addresses (matches6_ne_zero hx.1), hx⟩⟩

theorem parseClaim_lease {body : List Byte} {base mask : BitVec 6} {priv : Bool} {lease : Nat}
    (h : parseClaim body = some (base, mask, priv, lease)) : 1 ≤ lease ∧ lease ≤ 255 := by
  unfold parseClaim at h
  split at h
  · next len =>
    split at h
    · cases h
    · dsimp only at h
      split at h
      · next hc =>
        cases h
        exact ⟨hc.2.2.1, Nat.le_of_lt_succ len.isLt⟩
      · cases h
  · cases h

/-- A claim with no conflict shares no address with an entry of another port (R118). -/
theorem claims_claim (h : s.ClaimsSound) {p : Port} {base mask : BitVec 6} {priv : Bool} {lease : Nat} (e : ResvIx)
    (hl : 1 ≤ lease ∧ lease ≤ 255) (hc : s.conflicts p base mask = false) :
    (setResv e (some { owner := p, base := base, mask := mask, priv := priv, lease := lease, remaining := lease }) s).ClaimsSound := by
  have apart : ∀ (f : ResvIx) (a : Reservation), s.resvs[f] = some a → a.owner ≠ p → ∀ x : BitVec 6,
      ¬ (matches6 base mask x = true ∧ matches6 a.base a.mask x = true) := fun f a ha hp x hx => by
    have := conflicts_iff.mpr ⟨f, a, ha, hp, x, hx⟩
    rw [hc] at this
    cases this
  constructor
  · intro f g a b ha hb hab x hx
    rw [setResv_get] at ha hb
    split at ha <;> split at hb
    · cases ha; cases hb; exact hab rfl
    · cases ha; exact apart g b hb (Ne.symm hab) x hx
    · cases hb; exact apart f a ha hab x hx.symm
    · exact h.disjoint f g a b ha hb hab x hx
  · intro f a ha
    rw [setResv_get] at ha
    split at ha
    · cases ha; exact ⟨hl.1, le_rfl, hl.2⟩
    · exact h.leased f a ha

theorem claims_lowerLease (h : s.ClaimsSound) (e : ResvIx) : (lowerLease s e).ClaimsSound := by
  unfold lowerLease
  split
  · exact h
  · next a ha =>
    split
    · exact (claims_free h e).congr (work_raise _ .lease _).resvs
    · next hn =>
      obtain ⟨-, hle, -⟩ := h.leased e a ha
      exact claims_remaining h ha ⟨by omega, by omega⟩

theorem claims_turnoverEvent (h : s.ClaimsSound) (m : Marks) : (turnoverEvent m s).ClaimsSound := by
  unfold turnoverEvent
  refine State.ClaimsSound.congr (turnoverReactions_keeps ?_ ?_ ?_ ?_ ?_ ?_ h) (work_offerBus _).resvs
  · exact fun s h => h.congr rfl
  · exact fun s h => h.congr rfl
  · exact fun s h => h.congr (pollTurnover_resvs s)
  · exact fun s c h => h.congr (store_checkDeadline s c).resvs
  · exact fun s e h => claims_lowerLease h e
  · exact fun s h => h.congr (decision_lowerWindow s).resvs

theorem claims_endExchange (h : s.ClaimsSound) (e : Exchange) (o : Outcome) (ws : List Word) :
    (endExchange e o ws s).ClaimsSound := by
  unfold endExchange
  refine afterExchange_keeps (I := State.ClaimsSound) ?_ ?_ ?_ ?_
  · exact fun h => h.congr (work_drained _).resvs
  · exact fun s _ h => claims_turnoverEvent h _
  · exact fun s h => h.congr ((work_restoreMarks s _).trans (work_offerBus _)).resvs
  · exact h.congr ((work_updateTarget _ e o).trans (work_handOff _ e o ws)).resvs

theorem claims_sessionEnd (h : s.ClaimsSound) (p : Port) : (sessionEnd p s).ClaimsSound := by
  rw [sessionEnd_eq]
  refine State.ClaimsSound.congr (h.shrink fun e a ha => ?_) (decision_leaveProposal _ p).resvs
  simp only [leaveBlocks] at ha
  rw [tab_get, Option.filter_eq_some_iff] at ha
  obtain ⟨h1, h2, -⟩ := h.leased e a ha.1
  exact ⟨a, ha.1, rfl, rfl, rfl, h1, h2, rfl⟩

theorem claims_event (h : Event s t) (hs : s.ClaimsSound) : t.ClaimsSound := by
  cases h with
  | nothing => exact hs
  | powerOn =>
    refine hs.shrink fun e a ha => ?_
    change State.reset.resvs[e] = some a at ha
    simp [State.reset] at ha
  | sessionEnd => exact (claims_sessionEnd hs _).congr (work_offerBus _).resvs
  | claim _ hb hc => exact claims_claim hs _ (parseClaim_lease hb) hc
  | renew he =>
    obtain ⟨h1, h2, -⟩ := hs.leased _ _ he
    exact claims_remaining hs he ⟨h1.trans h2, le_rfl⟩
  | release => exact claims_free hs _
  | turnover => exact claims_turnoverEvent (hs.congr (clearMarks_resvs s)) _
  | endExchange => exact claims_endExchange hs _ _ _
  | lineFaultEnd =>
    have hs' : (enterLineFault s).ClaimsSound := hs.congr rfl
    exact claims_endExchange hs' _ _ _
  | flush => exact hs.congr (store_flushChain s _).resvs
  | storeFault => exact hs.congr ((work_foldl s work_damageSlot _).trans (work_storeFault _)).resvs
  | cancelActive => exact hs.congr (work_setCancelPending s _ _).resvs
  | fetch => exact hs.congr ((work_unlist s _).trans (work_freeSlot _ _)).resvs
  | post => exact hs.congr (work_offerBus _).resvs
  | retire => exact hs.congr ((work_retire s _ _ _).trans (work_offerBus _)).resvs
  | chainGo => exact hs.congr (work_offerBus _).resvs
  | chainRetry => exact hs.congr (work_offerBus _).resvs
  | lineOk => exact hs.congr (work_offerBus _).resvs
  | pollPause => exact hs.congr (work_phaseTest _).resvs
  | pollDelete => exact hs.congr (work_phaseTest _).resvs
  | propose => exact hs.congr (store_raiseProposal _ _).resvs
  | proposeAlone =>
    exact hs.congr ((work_offerBus _).resvs.trans ((decision_decideProposal _ _ _).resvs.trans (store_raiseProposal _ _).resvs))
  | consent => exact hs.congr ((work_offerBus _).resvs.trans (decision_decideProposal _ _ _).resvs)
  | decide => exact hs.congr (decision_decideProposal s _ _).resvs
  | upset i stored =>
    refine hs.congr ?_
    unfold upsetSlot
    split <;> rfl
  | attach | chainSet | chainPause | pollCreate | pollChange | pollResume | pollAdopt | notify | confirm | overrun | lineFault =>
    exact hs.congr rfl

/-- Settles O52: claims that conflict are refused, a turnover frees a lease that has run out, and nothing else adds to the table. -/
theorem reservationsStayApart : Obligations.ReservationsStayApart := by
  unfold Obligations.ReservationsStayApart
  intro s t hs h
  exact step_keeps (fun s p w hs => hs.congr rfl) (fun s t hq hs => hs.congr (by rw [hq.frame]))
    (fun s t he hs => claims_event he hs) hs h

end Sys2Proof.Machine

/-! PROOF. Sets of ports (section 12.5), and the pending proposal as R143 has it (O56). -/

namespace Sys2Proof.Machine

variable {s t : State}

/-! ### Sets of ports -/

theorem portSet_ext {a b : PortSet} (h : ∀ q : Port, a.has q = b.has q) : a = b :=
  BitVec.eq_of_getLsbD_eq fun i hi => h ⟨i, hi⟩

theorem has_portSet {p q : Port} : (portSet p).has q = decide (q = p) := by
  revert p q; decide

theorem has_union {a b : PortSet} {q : Port} : (a ||| b : BitVec 4).getLsbD q.val = (a.has q || b.has q) := BitVec.getLsbD_or

/-- A port left out of a set. -/
theorem has_drop {a : PortSet} {p q : Port} : (a.drop p).has q = (a.has q && decide (q ≠ p)) := by
  have h : (a.drop p).has q = (a.has q && !(portSet p).has q) := by simp [PortSet.drop, PortSet.has]
  rw [h, has_portSet]
  simp

/-- One set is contained in another. -/
theorem inter_compl_eq_zero_iff {a b : PortSet} : a &&& ~~~ b = 0 ↔ ∀ q : Port, a.has q = true → b.has q = true := by
  constructor
  · intro h q hq
    have h0 : (a &&& ~~~ b : BitVec 4).getLsbD q.val = (0 : BitVec 4).getLsbD q.val := by rw [h]
    simp only [PortSet.has] at hq ⊢
    simpa [hq] using h0
  · refine fun h => portSet_ext fun q => ?_
    have hq := h q
    simp only [PortSet.has] at hq ⊢
    simpa using hq

theorem complete_iff {pr : Proposal} : pr.complete = true ↔ ∀ q : Port, pr.required.has q = true → pr.confirmed.has q = true := by
  rw [Proposal.complete, beq_iff_eq, inter_compl_eq_zero_iff]

theorem complete_eq_false_iff {pr : Proposal} :
    pr.complete = false ↔ ∃ q : Port, pr.required.has q = true ∧ pr.confirmed.has q = false := by
  rw [← Bool.not_eq_true, complete_iff]
  push Not
  simp

theorem has_attachedSet {q : Port} : s.attachedSet.has q = s.attached q := by
  have key : ∀ a b c d : Bool, ∀ q : Port,
      PortSet.has (
        let x : PortSet := if a then 0 ||| portSet 0 else 0
        let y : PortSet := if b then x ||| portSet 1 else x
        let z : PortSet := if c then y ||| portSet 2 else y
        if d then z ||| portSet 3 else z) q = [a, b, c, d][q] := by decide
  have hl : List.finRange 4 = [0, 1, 2, 3] := rfl
  rw [State.attachedSet, hl]
  exact (key _ _ _ _ q).trans (by fin_cases q <;> rfl)

/-! ### The pending proposal (R143) -/

/-- What R143 has of a pending proposal. -/
def Proposal.Sound (pr : Proposal) : Prop :=
  pr.required.has pr.proposer = true ∧ pr.confirmed.has pr.proposer = true ∧ pr.confirmed &&& ~~~ pr.required = 0 ∧
    pr.complete = false ∧ 1 ≤ pr.window ∧ pr.window ≤ 64

theorem State.ProposalSound.congr (h : s.ProposalSound) (hp : t.proposal = s.proposal) : t.ProposalSound := by
  intro pr hpr
  exact h pr (hp ▸ hpr)

theorem proposalSound_none (h : t.proposal = none) : t.ProposalSound := fun pr hpr => by rw [h] at hpr; cases hpr

theorem proposalSound_some {pr : Proposal} (h : t.proposal = some pr) (hpr : pr.Sound) : t.ProposalSound := fun pr' hpr' => by
  rw [h] at hpr'; cases hpr'; exact hpr

theorem sound_newProposal {p : Port} {c : Change} (ha : s.attached p = true) (hn : (newProposal p c s).complete = false) :
    (newProposal p c s).Sound := by
  have hp : (portSet p).has p = true := by simp [has_portSet]
  refine ⟨has_attachedSet.trans ha, hp, inter_compl_eq_zero_iff.mpr fun q hq => ?_, hn, ?_⟩
  · change (portSet p).has q = true at hq
    rw [has_portSet, decide_eq_true_eq] at hq
    rw [hq]
    exact has_attachedSet.trans ha
  · exact ⟨show 1 ≤ 64 by omega, le_refl 64⟩

theorem sound_confirmedBy {p : Port} {pr : Proposal} (h : pr.Sound) (hr : pr.required.has p = true)
    (hn : (pr.confirmedBy p).complete = false) : (pr.confirmedBy p).Sound := by
  obtain ⟨hreq, hconf, hsub, -, hw⟩ := h
  rw [inter_compl_eq_zero_iff] at hsub
  refine ⟨hreq, has_union.trans ?_, inter_compl_eq_zero_iff.mpr fun q hq => ?_, hn, hw⟩
  · simp [Proposal.confirmedBy, hconf]
  · have hq' : pr.confirmed.has q = true ∨ (portSet p).has q = true := by
      rw [← Bool.or_eq_true, ← has_union]; exact hq
    obtain hq' | hq' := hq'
    · exact hsub q hq'
    · rw [has_portSet, decide_eq_true_eq] at hq'
      exact hq' ▸ hr

/-- A proposal that a port other than its proposer leaves (R151). -/
def Proposal.without (pr : Proposal) (p : Port) : Proposal :=
  { pr with required := pr.required.drop p, confirmed := pr.confirmed.drop p }

theorem sound_without {p : Port} {pr : Proposal} (h : pr.Sound) (hp : pr.proposer ≠ p) (hn : (pr.without p).complete = false) :
    (pr.without p).Sound := by
  obtain ⟨hreq, hconf, hsub, -, hw⟩ := h
  rw [inter_compl_eq_zero_iff] at hsub
  refine ⟨?_, ?_, inter_compl_eq_zero_iff.mpr fun q hq => ?_, hn, hw⟩
  · exact has_drop.trans (by simp [Proposal.without, hreq, hp])
  · exact has_drop.trans (by simp [Proposal.without, hconf, hp])
  · simp only [Proposal.without, has_drop, Bool.and_eq_true] at hq ⊢
    exact ⟨hsub q hq.1, hq.2⟩

theorem proposal_leaveProposal (h : s.ProposalSound) (p : Port) : (leaveProposal p s).ProposalSound := by
  unfold leaveProposal
  split
  · exact h
  · next pr hpr =>
    split
    · exact h
    · dsimp only
      split_ifs with hp hc
      · exact proposalSound_none rfl
      · exact proposalSound_none rfl
      · exact proposalSound_some rfl (sound_without (h pr hpr) hp (by simpa [Proposal.without] using hc))

theorem proposal_lowerWindow (h : s.ProposalSound) : (lowerWindow s).ProposalSound := by
  unfold lowerWindow
  split
  · exact h
  · next pr hpr =>
    dsimp only
    split
    · exact proposalSound_none rfl
    · next hw =>
      obtain ⟨hreq, hconf, hsub, hcompl, -, hle⟩ := h pr hpr
      exact proposalSound_some rfl ⟨hreq, hconf, hsub, hcompl, Nat.one_le_iff_ne_zero.mpr hw, (Nat.sub_le _ _).trans hle⟩

theorem lowerLease_proposal (e : ResvIx) : (lowerLease s e).proposal = s.proposal := by
  unfold lowerLease
  split
  · rfl
  · split
    · exact (work_raise _ .lease _).proposal
    · rfl

theorem proposal_turnoverEvent (h : s.ProposalSound) (m : Marks) : (turnoverEvent m s).ProposalSound := by
  unfold turnoverEvent
  refine State.ProposalSound.congr (turnoverReactions_keeps ?_ ?_ ?_ ?_ ?_ ?_ h) (work_offerBus _).proposal
  · exact fun s h => h.congr rfl
  · exact fun s h => h.congr rfl
  · exact fun s h => h.congr (pollTurnover_proposal s)
  · exact fun s c h => h.congr (store_checkDeadline s c).proposal
  · exact fun s e h => h.congr (lowerLease_proposal e)
  · exact fun s h => proposal_lowerWindow h

theorem proposal_endExchange (h : s.ProposalSound) (e : Exchange) (o : Outcome) (ws : List Word) :
    (endExchange e o ws s).ProposalSound := by
  unfold endExchange
  refine afterExchange_keeps (I := State.ProposalSound) ?_ ?_ ?_ ?_
  · exact fun h => h.congr (work_drained _).proposal
  · exact fun s _ h => proposal_turnoverEvent h _
  · exact fun s h => h.congr ((work_restoreMarks s _).trans (work_offerBus _)).proposal
  · exact h.congr ((work_updateTarget _ e o).trans (work_handOff _ e o ws)).proposal

/-- A decision leaves no proposal pending (R145). -/
theorem decideByConsent_proposal (pr : Proposal) : (decideByConsent pr s).proposal = none :=
  (work_offerBus _).proposal.trans (decideProposal_proposal s pr _)

theorem acceptPropose_proposal (p : Port) (c : Change) : (acceptPropose p c s).proposal = some (newProposal p c s) :=
  (store_raiseProposal _ _).proposal

theorem proposal_event (h : Event s t) (hs : s.ProposalSound) : t.ProposalSound := by
  cases h with
  | nothing => exact hs
  | powerOn => exact proposalSound_none rfl
  | @sessionEnd p =>
    rw [sessionEnd_eq]
    have hb : (leaveBlocks p s).ProposalSound := hs.congr rfl
    exact (proposal_leaveProposal hb _).congr (work_offerBus _).proposal
  | propose ha _ hn => exact proposalSound_some (acceptPropose_proposal _ _) (sound_newProposal ha hn)
  | proposeAlone => exact proposalSound_none (decideByConsent_proposal _)
  | confirm hp hr hn => exact proposalSound_some rfl (sound_confirmedBy (hs _ hp) hr hn)
  | consent => exact proposalSound_none (decideByConsent_proposal _)
  | decide => exact proposalSound_none (decideProposal_proposal s _ _)
  | turnover => exact proposal_turnoverEvent (hs.congr (clearMarks_proposal s)) _
  | endExchange => exact proposal_endExchange hs _ _ _
  | lineFaultEnd =>
    have hs' : (enterLineFault s).ProposalSound := hs.congr rfl
    exact proposal_endExchange hs' _ _ _
  | flush => exact hs.congr (store_flushChain s _).proposal
  | storeFault => exact hs.congr ((work_foldl s work_damageSlot _).trans (work_storeFault _)).proposal
  | cancelActive => exact hs.congr (work_setCancelPending s _ _).proposal
  | fetch => exact hs.congr ((work_unlist s _).trans (work_freeSlot _ _)).proposal
  | post => exact hs.congr (work_offerBus _).proposal
  | retire => exact hs.congr ((work_retire s _ _ _).trans (work_offerBus _)).proposal
  | chainGo => exact hs.congr (work_offerBus _).proposal
  | chainRetry => exact hs.congr (work_offerBus _).proposal
  | lineOk => exact hs.congr (work_offerBus _).proposal
  | pollPause => exact hs.congr (work_phaseTest _).proposal
  | pollDelete => exact hs.congr (work_phaseTest _).proposal
  | upset i stored =>
    refine hs.congr ?_
    unfold upsetSlot
    split <;> rfl
  | attach | chainSet | chainPause | pollCreate | pollChange | pollResume | pollAdopt | claim | renew | release | notify | overrun
  | lineFault => exact hs.congr rfl

/-- Settles O56: the proposal changes where it is made, confirmed, left and counted down, and a decision removes it. -/
theorem pendingProposalStaysSound : Obligations.PendingProposalStaysSound := by
  unfold Obligations.PendingProposalStaysSound
  intro s t hs h
  exact step_keeps (fun s p w hs => hs.congr rfl) (fun s t hq hs => hs.congr (by rw [hq.frame]))
    (fun s t he hs => proposal_event he hs) hs h

end Sys2Proof.Machine

/-! PROOF. What a try and its end leave unchanged, and what they start; the Poll Plan and its pending list stay sound (O53). -/

namespace Sys2Proof.Machine

variable {s t u : State}

/-! ### Tries -/

/-- `t` differs from `s` at most in slots, chains, reports, grant, scheduler state, and an exchange that was started for a record. -/
structure TryFrame (s t : State) : Prop where
  frame : t = { s with
    slots := t.slots, chains := t.chains, reports := t.reports, grant := t.grant, exchange := t.exchange, sched := t.sched }
  starts : t.exchange = s.exchange ∨ ∃ (e : Exchange) (i : SlotIx) (g : Byte), t.exchange = some e ∧ e.origin = .record i g

namespace TryFrame

theorem refl (s : State) : TryFrame s s := ⟨rfl, .inl rfl⟩

theorem trans (h : TryFrame s t) (k : TryFrame t u) : TryFrame s u where
  frame := by rw [k.frame, h.frame]
  starts := by
    obtain hk | hk := k.starts
    · rw [hk]; exact h.starts
    · exact .inr hk

theorem ofStore (h : StoreFrame s t) : TryFrame s t := ⟨by rw [h], .inl h.exchange⟩

theorem polls (h : TryFrame s t) : t.polls = s.polls := by rw [h.frame]
theorem pollPending (h : TryFrame s t) : t.pollPending = s.pollPending := by rw [h.frame]
theorem phase (h : TryFrame s t) : t.phase = s.phase := by rw [h.frame]
theorem pollsRun (h : TryFrame s t) : t.pollsRun = s.pollsRun := by rw [h.frame]
theorem pollWindow (h : TryFrame s t) : t.pollWindow = s.pollWindow := by rw [h.frame]
theorem targets (h : TryFrame s t) : t.targets = s.targets := by rw [h.frame]
theorem expired (h : TryFrame s t) : t.expired = s.expired := by rw [h.frame]
theorem line (h : TryFrame s t) : t.line = s.line := by rw [h.frame]

end TryFrame

section
variable (s : State)

theorem try_endGrant : TryFrame s (endGrant s) := ⟨rfl, .inl rfl⟩

theorem try_grant (g : Option Grant) : TryFrame s { s with grant := g } := ⟨rfl, .inl rfl⟩

theorem try_storeFault : TryFrame s (storeFault s) := ⟨rfl, .inl rfl⟩

theorem try_startExchange {e : Exchange} {i : SlotIx} {g : Byte} (h : e.origin = .record i g) : TryFrame s (startExchange e s) :=
  ⟨rfl, .inr ⟨e, i, g, rfl, h⟩⟩

theorem recordExchange_origin (i : SlotIx) (r : Record) : (recordExchange s i r).origin = .record i s.slots[i].gen := by
  unfold recordExchange
  dsimp only
  split <;> rfl

theorem try_tryStart (c : ChainIx) : TryFrame s (tryStart c s) := by
  unfold tryStart
  split
  · exact try_endGrant s
  · split
    · exact (TryFrame.ofStore (store_damageSlot s _)).trans (try_storeFault _)
    · split
      · exact (TryFrame.ofStore (store_haltHead s _ _ _ _)).trans (try_endGrant _)
      · exact (TryFrame.ofStore (store_putRecord s _ _)).trans (try_startExchange _ (recordExchange_origin s _ _))

theorem try_burstContinue (c : ChainIx) : TryFrame s (burstContinue c s) := by
  unfold burstContinue
  split
  · split
    · split
      · exact (try_grant s _).trans (try_tryStart _ c)
      · exact try_endGrant s
    · exact .refl s
  · exact .refl s

theorem try_completeRecord (i : SlotIx) (r : Record) (o : Outcome) (res : Result) : TryFrame s (completeRecord i r o res s) :=
  ((TryFrame.ofStore (store_leaveCompleted s i _ o)).trans (.ofStore (store_skipGroup _ _ o))).trans (try_burstContinue _ _)

theorem try_requeueHead (i : SlotIx) (r : Record) : TryFrame s (requeueHead i r s) :=
  (TryFrame.ofStore (store_putRecord s i _)).trans (try_endGrant _)

theorem try_haltAfterTry (i : SlotIx) (r : Record) (why : HaltReason) : TryFrame s (haltAfterTry i r why s) :=
  (TryFrame.ofStore (store_haltHead s _ i _ why)).trans (try_endGrant _)

theorem try_cancelled (i : SlotIx) (r : Record) : TryFrame s (endGrant (retire i r .cancelled s)) :=
  (TryFrame.ofStore (store_retire s i r _)).trans (try_endGrant _)

theorem try_spendBudget (i : SlotIx) (r : Record) : TryFrame s (spendBudget i r s) := by
  unfold spendBudget
  split
  · exact try_requeueHead s i r
  · dsimp only
    split
    · exact try_haltAfterTry s i _ .exhausted
    · exact try_requeueHead s i _

end

/-! ### The end of a try, by what becomes of the record (R27) -/

/-- What becomes of a record at the end of its try. -/
inductive TryResult (i : SlotIx) (r : Record) (s : State) : State → Prop
  | completes {r' : Record} {o : Outcome} (res : Result) (h : ∃ e, r' = r.afterTry e) :
      TryResult i r s (completeRecord i r' o res s)
  | cancelled {r' : Record} (h : ∃ e, r' = r.afterTry e) : TryResult i r s (endGrant (retire i r' .cancelled s))
  | requeued {r' : Record} (h : ∃ e, r' = r.afterTry e) : TryResult i r s (requeueHead i r' s)
  | halted {r' : Record} {why : HaltReason} (h : ∃ e, r' = r.afterTry e) : TryResult i r s (haltAfterTry i r' why s)
  | spent {r' : Record} (h : ∃ e, r' = r.afterTry e) : TryResult i r s (spendBudget i r' s)

/-- The end of a try completes the record, cancels it, or keeps it at the head, QUEUED or HALTED. -/
theorem applyTryEnd_result (i : SlotIx) (r : Record) (e : TryEnd) (res : Result) (s : State) :
    TryResult i r s (applyTryEnd i r e res s) := by
  have h : ∃ e', r.afterTry e = r.afterTry e' := ⟨e, rfl⟩
  cases e with
  | outcome o =>
    cases o with
    | done => exact .completes res h
    | short => exact .completes res h
    | wait | line =>
      simp only [applyTryEnd]
      split
      · exact .cancelled h
      · exact .requeued h
    | refused | overlong =>
      simp only [applyTryEnd]
      split
      · exact .cancelled h
      · exact .halted h
    | noreply | corrupt =>
      simp only [applyTryEnd]
      split
      · exact .cancelled h
      · exact .spent h
  | midCancel => exact .cancelled h
  | midFault => exact .requeued h
  | midFence => exact .halted h

theorem try_of_result {i : SlotIx} {r : Record} (h : TryResult i r s t) : TryFrame s t := by
  cases h with
  | completes res => exact try_completeRecord s i _ _ res
  | cancelled => exact try_cancelled s i _
  | requeued => exact try_requeueHead s i _
  | halted => exact try_haltAfterTry s i _ _
  | spent => exact try_spendBudget s i _

/-- What a MODIFY's mid-point does: the end of the try, or the start of the write phase (R56). -/
theorem midPoint_result (e : Exchange) (i : SlotIx) (r : Record) (old : Word) (s : State) :
    TryResult i r s (midPoint e i r old s) ∨
      (r.cancelPending = false ∧ s.fenced (chainPort r.home) r.kind r.target = false ∧
        midPoint e i r old s = startExchange (writePhase s e r old) s) := by
  unfold midPoint
  split
  · exact .inl (applyTryEnd_result i r _ _ s)
  · next hc =>
    split
    · exact .inl (applyTryEnd_result i r _ _ s)
    · split
      · exact .inl (applyTryEnd_result i r _ _ s)
      · next hf => exact .inr ⟨by simpa using hc, by simpa using hf, rfl⟩

/-- What becomes of the outcome of a record's exchange (R18, R54, R159): nothing, the freeing of an ORPHANED slot, the end of an
ACTIVE record's try, or its write phase. -/
inductive RecordResult (e : Exchange) (i : SlotIx) (g : Byte) (o : Outcome) (s : State) : State → Prop
  | nothing (h : ∀ r, s.record i = some r → s.slots[i].gen = g → r.state ≠ .active ∧ r.state ≠ .orphaned) : RecordResult e i g o s s
  | freed {r : Record} (hr : s.record i = some r) (hs : r.state = .orphaned) : RecordResult e i g o s (freeSlot i s)
  | tried {r : Record} {t : State} (hr : s.record i = some r) (hs : r.state = .active) (hg : s.slots[i].gen = g)
      (h : TryResult i r s t) : RecordResult e i g o s t
  | writes {r : Record} (old : Word) (hr : s.record i = some r) (hs : r.state = .active) (hg : s.slots[i].gen = g)
      (hf : s.fenced (chainPort r.home) r.kind r.target = false) (ho : o = .done) :
      RecordResult e i g o s (startExchange (writePhase s e r old) s)

theorem recordOutcome_result (e : Exchange) (i : SlotIx) (g : Byte) (o : Outcome) (words : List Word) (s : State) :
    RecordResult e i g o s (recordOutcome e i g o words s) := by
  unfold recordOutcome
  split
  · next hn => exact .nothing fun r hr => by rw [hn] at hr; cases hr
  · next r hr =>
    split
    · next hg => exact .nothing fun r' _ hg' => absurd hg' hg
    · next hg =>
      have other : r.state ≠ .active → r.state ≠ .orphaned → RecordResult e i g o s s := fun ha ho =>
        .nothing fun r' hr' _ => by rw [hr] at hr'; cases hr'; exact ⟨ha, ho⟩
      split
      · next hs => exact .freed hr hs
      · next hs =>
        split
        · next hd =>
          obtain h | ⟨_, hf, h⟩ := midPoint_result e i r (words.headD 0) s
          · exact .tried hr hs (not_not.mp hg) h
          · rw [h]; exact .writes _ hr hs (not_not.mp hg) hf hd.2
        · exact .tried hr hs (not_not.mp hg) (applyTryEnd_result i r _ _ s)
      all_goals next hs => exact other (by simp [hs]) (by simp [hs])

theorem try_recordOutcome {e : Exchange} {i : SlotIx} {g : Byte} (he : e.origin = .record i g) (o : Outcome) (words : List Word)
    (s : State) : TryFrame s (recordOutcome e i g o words s) := by
  generalize h : recordOutcome e i g o words s = t
  cases h ▸ recordOutcome_result e i g o words s with
  | nothing => exact .refl s
  | freed => exact .ofStore (store_freeSlot s i)
  | tried _ _ _ hres => exact try_of_result hres
  | writes old => exact try_startExchange s (e := writePhase s e _ old) he

/-! ### The Poll Plan (R97, R99) -/

theorem State.PlanSound.congr (h : s.PlanSound) (hp : t.polls = s.polls) (hl : t.pollPending = s.pollPending)
    (he : t.exchange = s.exchange) : t.PlanSound := by
  obtain ⟨hd, ho, ha, hx⟩ := h
  constructor <;> simp only [hp, hl, he]
  · exact hd
  · exact ho
  · exact ha
  · exact hx

/-- What a poll's exchange must not find: its own entry in the pending list. -/
def State.PolledApart (s : State) (x : Option Exchange) : Prop :=
  ∀ (e : Exchange) (i : PollIx) (edit : Byte), x = some e → e.origin = .poll i edit → i ∉ s.pollPending

theorem polledApart_none (s : State) : s.PolledApart none := fun _ _ _ h => by cases h

/-- Entries that keep their identity, under a pending list without repeats whose entries are ACTIVE. -/
theorem State.PlanSound.remake (h : s.PlanSound)
    (hp : ∀ (i : PollIx) (b : PollBody), t.polls[i].body = some b →
      ∃ b' : PollBody, s.polls[i].body = some b' ∧ b.target = b'.target ∧ b.span = b'.span)
    (ho : t.pollPending.Nodup) (ha : ∀ i ∈ t.pollPending, ∃ b : PollBody, t.polls[i].body = some b ∧ b.paused = false)
    (hx : t.PolledApart t.exchange) : t.PlanSound where
  distinct i j b d hb hd htgt hsp := by
    obtain ⟨b', hb', htb, hsb⟩ := hp i b hb
    obtain ⟨d', hd', htd, hsd⟩ := hp j d hd
    exact h.distinct i j b' d' hb' hd' (htb ▸ htd ▸ htgt) (hsb ▸ hsd ▸ hsp)
  pending_once := ho
  pending_active := ha
  polled_apart e i edit := hx e i edit

theorem plan_try (h : s.PlanSound) (k : TryFrame s t) : t.PlanSound := by
  obtain hx | ⟨e, i, g, hx, ho⟩ := k.starts
  · exact h.congr k.polls k.pollPending hx
  · refine h.remake (fun i b hb => ⟨b, k.polls ▸ hb, rfl, rfl⟩) (k.pollPending ▸ h.pending_once) ?_ fun e' j edit he' hj => ?_
    · rw [k.pollPending, k.polls]; exact h.pending_active
    · rw [hx] at he'; cases he'; rw [ho] at hj; cases hj

/-- A pending list with fewer entries, and no other exchange. -/
theorem plan_fewer (h : s.PlanSound) (hp : t.polls = s.polls) (hl : t.pollPending.Sublist s.pollPending)
    (hx : t.PolledApart t.exchange) : t.PlanSound := by
  refine h.remake (fun i b hb => ⟨b, hp ▸ hb, rfl, rfl⟩) (hl.nodup h.pending_once) (fun i hi => ?_) hx
  rw [hp]
  exact h.pending_active i (hl.subset hi)

theorem plan_startPoll (h : s.PlanSound) (hx : s.exchange = none) : (startPoll s).PlanSound := by
  unfold startPoll
  split
  · exact h
  · next i rest hl =>
    have hsub : rest.Sublist s.pollPending := hl ▸ List.sublist_cons_self i rest
    split
    · exact plan_fewer (t := { s with pollPending := rest }) h rfl hsub (by simp only [hx]; exact polledApart_none _)
    · refine plan_fewer h rfl hsub fun e j edit he hj => ?_
      cases he
      cases hj
      have hnd := h.pending_once
      rw [hl] at hnd
      exact (List.nodup_cons.mp hnd).1

theorem plan_grantTo (h : s.PlanSound) (c : ChainIx) : (grantTo c s).PlanSound :=
  h.congr (grantTo_polls s c) (grantTo_pollPending s c) (grantTo_exchange s c)

theorem plan_skipSilent (h : s.PlanSound) : (skipSilent s).PlanSound := by
  have hl : (skipSilent s).pollPending.Sublist s.pollPending := List.dropWhile_sublist _
  exact plan_fewer h rfl hl fun e i edit he hi hmem => h.polled_apart e i edit he hi (hl.subset hmem)

theorem plan_offerBus (h : s.PlanSound) : (offerBus s).PlanSound := by
  refine offerBus_keeps (I := State.PlanSound) ?_ ?_ ?_ ?_ h
  · exact fun s h => h.congr rfl rfl rfl
  · exact fun s h => plan_skipSilent h
  · exact fun s hm _ h => plan_startPoll h (mayOffer_idle hm)
  · exact fun s c _ _ h => plan_try (plan_grantTo h c) (try_tryStart _ c)

theorem plan_decision (h : s.PlanSound) (k : DecisionFrame s t) : t.PlanSound := h.congr k.polls k.pollPending k.exchange

theorem plan_store (h : s.PlanSound) (k : StoreFrame s t) : t.PlanSound := h.congr k.polls k.pollPending k.exchange

/-- An in-use entry after a turnover (R98): its snapshot ages, and a miss is counted when it is due and pending. -/
def PollBody.atTurnover (sweep : Word) (pending : Bool) (b : PollBody) : PollBody :=
  { b with
    snap := { b.snap with age := satInc 255 b.snap.age }
    missed := if b.due sweep && pending then satInc 255 b.missed else b.missed }

theorem pollTurnover_poll (i : PollIx) : (pollTurnover s).polls[i] =
    { s.polls[i] with body := s.polls[i].body.map (PollBody.atTurnover s.sweep (s.pollPending.contains i)) } := by
  simp only [pollTurnover]
  rw [tab_get]
  rfl

theorem pollTurnover_pollPending : (pollTurnover s).pollPending =
    s.pollPending ++ (List.finRange 48).filter fun i => s.pollDue i && !s.pollPending.contains i := by
  simp only [pollTurnover]

theorem pollDue_iff {i : PollIx} : s.pollDue i = true ↔
    ∃ b : PollBody, s.polls[i].body = some b ∧ b.paused = false ∧ s.sweep.toNat % b.period = b.phase := by
  unfold State.pollDue PollBody.due
  cases s.polls[i].body <;> simp

theorem plan_pollTurnover (h : s.PlanSound) (hx : s.exchange = none) : (pollTurnover s).PlanSound := by
  refine h.remake (fun i b hb => ?_) ?_ (fun i hi => ?_) ?_
  · rw [pollTurnover_poll, Option.map_eq_some_iff] at hb
    obtain ⟨b', hb', rfl⟩ := hb
    exact ⟨b', hb', rfl, rfl⟩
  · rw [pollTurnover_pollPending]
    refine List.nodup_append'.mpr ⟨h.pending_once, (List.nodup_finRange 48).filter _, fun i hi hj => ?_⟩
    have := (List.mem_filter.mp hj).2
    simp [hi] at this
  · have active : ∃ b : PollBody, s.polls[i].body = some b ∧ b.paused = false := by
      rw [pollTurnover_pollPending, List.mem_append, List.mem_filter, Bool.and_eq_true] at hi
      obtain hi | ⟨_, hdue, _⟩ := hi
      · exact h.pending_active i hi
      · obtain ⟨b, hb, hpaused, -⟩ := pollDue_iff.mp hdue
        exact ⟨b, hb, hpaused⟩
    obtain ⟨b, hb, hpaused⟩ := active
    exact ⟨b.atTurnover s.sweep (s.pollPending.contains i), by rw [pollTurnover_poll, hb]; rfl, hpaused⟩
  · rw [pollTurnover_exchange, hx]
    exact polledApart_none _

theorem plan_turnoverReactions (h : s.PlanSound) (hx : s.exchange = none) (m : Marks) :
    (turnoverReactions m (advanceSweep s)).PlanSound := by
  refine (turnoverReactions_keeps (I := fun s => s.PlanSound ∧ s.exchange = none) ?_ ?_ ?_ ?_ ?_ ?_ ⟨h, hx⟩).1
  · exact fun s ⟨h, hx⟩ => ⟨h.congr rfl rfl rfl, hx⟩
  · exact fun s ⟨h, hx⟩ => ⟨h.congr rfl rfl rfl, hx⟩
  · exact fun s ⟨h, hx⟩ => ⟨plan_pollTurnover h hx, (pollTurnover_exchange s).trans hx⟩
  · exact fun s c ⟨h, hx⟩ => ⟨plan_store h (store_checkDeadline s c), (store_checkDeadline s c).exchange.trans hx⟩
  · refine fun s e ⟨h, hx⟩ => ?_
    unfold lowerLease
    split
    · exact ⟨h, hx⟩
    · split
      · have k := store_raise { s with resvs := modAt s.resvs e fun _ => none } .lease
        exact ⟨h.congr (k _).polls (k _).pollPending (k _).exchange, (k _).exchange.trans hx⟩
      · exact ⟨h.congr rfl rfl rfl, hx⟩
  · exact fun s ⟨h, hx⟩ => ⟨plan_decision h (decision_lowerWindow s), (decision_lowerWindow s).exchange.trans hx⟩

theorem plan_turnoverEvent (h : s.PlanSound) (hx : s.exchange = none) (m : Marks) : (turnoverEvent m s).PlanSound :=
  plan_offerBus (plan_turnoverReactions h hx m)

/-- One entry of the plan is written. -/
theorem modPoll_get {i j : PollIx} {f : PollEntry → PollEntry} :
    (modPoll i f s).polls[j] = if j = i then f s.polls[i] else s.polls[j] := by
  unfold modPoll
  dsimp only
  rw [modAt_get]

/-- An entry is written with a body of the same identity and pause. -/
theorem plan_sameIdentity (h : s.PlanSound) {i : PollIx} {b b' : PollBody} {f : PollEntry → PollEntry}
    (hb : s.polls[i].body = some b) (hf : (f s.polls[i]).body = some b')
    (hid : b'.target = b.target ∧ b'.span = b.span ∧ (b.paused = false → b'.paused = false)) : (modPoll i f s).PlanSound := by
  obtain ⟨htgt, hsp, hpaused⟩ := hid
  refine h.remake (fun j c hc => ?_) h.pending_once (fun j hj => ?_) h.polled_apart
  · rw [modPoll_get] at hc
    split at hc
    · next e => rw [hf] at hc; cases hc; exact ⟨b, e ▸ hb, htgt, hsp⟩
    · exact ⟨c, hc, rfl, rfl⟩
  · obtain ⟨c, hc, hcp⟩ := h.pending_active j hj
    rw [modPoll_get]
    split
    · next e => subst e; cases hb.symm.trans hc; exact ⟨b', hf, hpaused hcp⟩
    · exact ⟨c, hc, hcp⟩

/-- No entry but the one excepted has the identity of a definition (R108, R109). -/
theorem sameIdentity_eq_none_iff {d : PollDef} {x : Option PollIx} : s.sameIdentity d x = none ↔
    ∀ (j : PollIx) (b : PollBody), some j ≠ x → s.polls[j].body = some b → ¬ (b.target = d.target ∧ b.span = d.span) := by
  unfold State.sameIdentity
  rw [List.find?_eq_none]
  refine ⟨fun h j b hj hb hid => h j (List.mem_finRange j) ?_, fun h j _ hj => ?_⟩
  · simp only [hb, Bool.and_eq_true, bne_iff_ne, beq_iff_eq]
    exact ⟨hj, hid⟩
  · simp only [Bool.and_eq_true, bne_iff_ne] at hj
    cases hb : s.polls[j].body with
    | none => rw [hb] at hj; cases hj.2
    | some b =>
      rw [hb] at hj
      simp only [Bool.and_eq_true, beq_iff_eq] at hj
      exact h j b hj.1 hb hj.2

/-- An entry is written with a new identity that no other has. -/
theorem plan_newIdentity (h : s.PlanSound) {i : PollIx} {d : PollDef} {x : Option PollIx} {b : PollBody} {f : PollEntry → PollEntry}
    (hx : s.sameIdentity d x = none) (hxi : ∀ j : PollIx, some j = x → j = i) (hf : (f s.polls[i]).body = some b)
    (hid : b.target = d.target ∧ b.span = d.span) (hpend : i ∈ s.pollPending → b.paused = false) : (modPoll i f s).PlanSound := by
  obtain ⟨htgt, hsp⟩ := hid
  rw [sameIdentity_eq_none_iff] at hx
  have apart : ∀ (j : PollIx) (c : PollBody), j ≠ i → s.polls[j].body = some c → ¬ (c.target = b.target ∧ c.span = b.span) :=
    fun j c hj hc hcb => hx j c (fun e => hj (hxi j e)) hc (htgt ▸ hsp ▸ hcb)
  refine ⟨fun j k c c' hc hc' htc hsc => ?_, h.pending_once, fun j hj => ?_, h.polled_apart⟩
  · rw [modPoll_get] at hc hc'
    split at hc <;> split at hc'
    · next hj hk => exact hj.trans hk.symm
    · next hj hk => rw [hf] at hc; cases hc; exact absurd ⟨htc.symm, hsc.symm⟩ (apart k c' hk hc')
    · next hj hk => rw [hf] at hc'; cases hc'; exact absurd ⟨htc, hsc⟩ (apart j c hj hc)
    · exact h.distinct j k c c' hc hc' htc hsc
  · rw [modPoll_get]
    split
    · next e => exact ⟨b, hf, hpend (e ▸ hj)⟩
    · exact h.pending_active j hj

/-- An entry that leaves the pending list may be paused, or removed. -/
theorem plan_unpend (h : s.PlanSound) {i : PollIx} {f : PollEntry → PollEntry}
    (hf : ∀ b : PollBody, (f s.polls[i]).body = some b →
      ∃ b' : PollBody, s.polls[i].body = some b' ∧ b.target = b'.target ∧ b.span = b'.span) :
    (unpend i (modPoll i f s)).PlanSound := by
  have hsub : (s.pollPending.filter (· != i)).Sublist s.pollPending := List.filter_sublist
  refine phaseTest_keeps (I := State.PlanSound) (fun s h => h.congr rfl rfl rfl) ?_
  refine h.remake (fun j b hb => ?_) (hsub.nodup h.pending_once) (fun j hj => ?_)
    fun e j edit he hj hmem => h.polled_apart e j edit he hj (hsub.subset hmem)
  · change (modPoll i f s).polls[j].body = some b at hb
    rw [modPoll_get] at hb
    split at hb
    · next e => exact e ▸ hf b hb
    · exact ⟨b, hb, rfl, rfl⟩
  · change ∃ b, (modPoll i f s).polls[j].body = some b ∧ b.paused = false
    obtain ⟨hmem, hne⟩ := List.mem_filter.mp hj
    rw [modPoll_get, if_neg (by simpa using hne)]
    exact h.pending_active j hmem

theorem plan_pollOutcome (h : s.PlanSound) (hx : s.exchange = none) (i : PollIx) (edit : Byte) (o : Outcome) (words : List Word) :
    (pollOutcome i edit o words s).PlanSound := by
  unfold pollOutcome
  split
  · exact h
  · next b hb =>
    split
    · exact h
    · split
      · split
        · exact h
        · next hp =>
          refine h.remake (fun j c hc => ⟨c, hc, rfl, rfl⟩) ?_ (fun j hj => ?_) (by simp only [hx]; exact polledApart_none _)
          · exact List.nodup_cons.mpr ⟨by simp, h.pending_once.filter _⟩
          · obtain rfl | hj := List.mem_cons.mp hj
            · exact ⟨b, hb, by simpa using hp⟩
            · exact h.pending_active j (List.mem_of_mem_filter hj)
      · dsimp only
        have hput : (modPoll i (fun en => { en with body := some { b with snap := b.snap.after b o words } }) s).PlanSound :=
          plan_sameIdentity h hb rfl ⟨rfl, rfl, id⟩
        split
        · split
          · exact plan_store hput (store_mark _ _ _)
          · exact hput
        · exact hput

theorem updateTarget_exchange (e : Exchange) (o : Outcome) : (updateTarget e o s).exchange = s.exchange := by
  unfold updateTarget
  split
  · rfl
  · split
    · rfl
    · dsimp only
      split <;> rfl

theorem plan_updateTarget (h : s.PlanSound) (e : Exchange) (o : Outcome) : (updateTarget e o s).PlanSound := by
  refine h.congr ?_ ?_ (updateTarget_exchange e o) <;> unfold updateTarget <;> split
  · rfl
  · split
    · rfl
    · dsimp only; split <;> rfl
  · rfl
  · split
    · rfl
    · dsimp only; split <;> rfl

theorem plan_handOff (h : s.PlanSound) (hx : s.exchange = none) (e : Exchange) (o : Outcome) (words : List Word) :
    (handOff e o words s).PlanSound := by
  unfold handOff
  split
  · next he => exact plan_try h (try_recordOutcome he o words s)
  · exact plan_pollOutcome h hx _ _ o words

theorem plan_noExchange (h : s.PlanSound) : ({ clearMarks s with exchange := none } : State).PlanSound :=
  plan_fewer h rfl (List.Sublist.refl _) (polledApart_none _)

theorem plan_drained (h : s.PlanSound) : (drained s).PlanSound := by
  unfold drained
  split
  · exact h.congr rfl rfl rfl
  · exact h

theorem plan_endExchange (h : s.PlanSound) (e : Exchange) (o : Outcome) (ws : List Word) : (endExchange e o ws s).PlanSound := by
  unfold endExchange
  refine afterExchange_keeps (I := State.PlanSound) ?_ ?_ ?_ ?_
  · exact plan_drained
  · exact fun s hx h => plan_turnoverEvent h hx _
  · exact fun s h => plan_offerBus (h.congr rfl rfl rfl)
  · exact plan_handOff (plan_updateTarget (plan_noExchange h) e o) (updateTarget_exchange e o) e o ws

/-- Only the creator of an entry changes at a session end (R114). -/
theorem plan_leaveBlocks (h : s.PlanSound) (p : Port) : (leaveBlocks p s).PlanSound := by
  have hbody : ∀ j : PollIx, (leaveBlocks p s).polls[j].body = (s.polls[j].sessionEnd p).body := fun j => by
    simp only [leaveBlocks]; rw [tab_get]
  refine h.remake (fun j b hb => ?_) h.pending_once (fun j hj => ?_) h.polled_apart
  · rw [hbody, PollEntry.sessionEnd, Option.map_eq_some_iff] at hb
    obtain ⟨c, hc, rfl⟩ := hb
    exact ⟨c, hc, rfl, rfl⟩
  · obtain ⟨c, hc, hcp⟩ := h.pending_active j hj
    refine ⟨{ c with creator := if c.creator = some p then none else c.creator }, ?_, hcp⟩
    rw [hbody, PollEntry.sessionEnd, hc]
    rfl

theorem plan_consent (h : s.PlanSound) (pr : Proposal) : (decideByConsent pr s).PlanSound :=
  plan_offerBus (plan_decision h (decision_decideProposal s pr _))

theorem plan_acceptPropose (h : s.PlanSound) (p : Port) (c : Change) : (acceptPropose p c s).PlanSound := by
  have h' : ({ s with lastNumber := (newProposal p c s).number, proposal := some (newProposal p c s) } : State).PlanSound :=
    h.congr rfl rfl rfl
  exact plan_store h' (store_raiseProposal _ _)

theorem plan_event (h : Event s t) (hs : s.PlanSound) : t.PlanSound := by
  cases h with
  | nothing => exact hs
  | powerOn =>
    refine ⟨fun i j b d hb => ?_, List.nodup_nil, fun i hi => (by cases hi), fun e i edit he => (by cases he)⟩
    change State.reset.polls[i].body = some b at hb
    simp [State.reset] at hb
  | @sessionEnd p =>
    rw [sessionEnd_eq]
    exact plan_offerBus (plan_decision (plan_leaveBlocks hs p) (decision_leaveProposal _ p))
  | pollCreate _ _ hsame hi =>
    refine plan_newIdentity hs hsame nofun rfl ⟨rfl, rfl⟩ fun hmem => ?_
    obtain ⟨b, hb, -⟩ := hs.pending_active _ hmem
    rw [hi] at hb
    cases hb
  | @pollChange _ d i b _ hsame hb =>
    refine plan_newIdentity hs hsame (fun j hj => Option.some.inj hj) rfl ⟨rfl, rfl⟩ fun hmem => ?_
    obtain ⟨c, hc, hpaused⟩ := hs.pending_active _ hmem
    cases hb.symm.trans hc
    exact hpaused
  | pollPause hb => exact plan_unpend hs fun b' hb' => ⟨_, hb, by cases hb'; exact ⟨rfl, rfl⟩⟩
  | pollResume hb => exact plan_sameIdentity hs hb rfl ⟨rfl, rfl, fun _ => rfl⟩
  | pollDelete => exact plan_unpend hs nofun
  | pollAdopt _ hb => exact plan_sameIdentity hs hb rfl ⟨rfl, rfl, id⟩
  | turnover hx =>
    have hs' : (clearMarks s).PlanSound := hs.congr rfl rfl rfl
    exact plan_turnoverEvent hs' hx _
  | endExchange => exact plan_endExchange hs _ _ _
  | lineFaultEnd =>
    have hs' : (enterLineFault s).PlanSound := hs.congr rfl rfl rfl
    exact plan_endExchange hs' _ _ _
  | lineOk =>
    have hs' : ({ s with line := .ok, run := 0, releasedCount := 0 } : State).PlanSound := hs.congr rfl rfl rfl
    exact plan_offerBus hs'
  | @post p _ b i =>
    have hs' : (acceptPost p b i s).PlanSound := hs.congr rfl rfl rfl
    exact plan_offerBus hs'
  | retire => exact plan_offerBus (plan_store hs (store_retire s _ _ _))
  | @chainGo c =>
    have hs' : (modChain c (fun ch => { ch with hold := false }) s).PlanSound := hs.congr rfl rfl rfl
    exact plan_offerBus hs'
  | chainRetry => exact plan_offerBus (plan_store hs (store_putRecord s _ _))
  | propose => exact plan_acceptPropose hs _ _
  | proposeAlone => exact plan_consent (plan_acceptPropose hs _ _) _
  | consent => exact plan_consent hs _
  | decide => exact plan_decision hs (decision_decideProposal s _ _)
  | flush => exact plan_store hs (store_flushChain s _)
  | storeFault => exact plan_try (plan_store hs (.foldl (fun s i => store_damageSlot s i) _ s)) (try_storeFault _)
  | cancelActive => exact plan_store hs (store_setCancelPending s _ _)
  | fetch => exact plan_store hs ((store_unlist s _).trans (store_freeSlot _ _))
  | upset i stored =>
    unfold upsetSlot
    split
    · exact hs.congr rfl rfl rfl
    · exact hs
  | attach | chainSet | chainPause | claim | renew | release | notify | confirm | overrun | lineFault =>
    exact hs.congr rfl rfl rfl

/-- A quiet change keeps the exchange's origin. -/
theorem plan_quiet (h : Quiet s t) (hs : s.PlanSound) : t.PlanSound := by
  have hp : t.polls = s.polls := by rw [h.frame]
  have hl : t.pollPending = s.pollPending := by rw [h.frame]
  refine plan_fewer hs hp (by rw [hl]) fun e i edit he hi => ?_
  cases hx : s.exchange with
  | none => rw [h.idle hx] at he; cases he
  | some x =>
    obtain ⟨e', he', hlead⟩ := h.course x hx
    cases he.symm.trans he'
    rw [hl]
    exact hs.polled_apart x i edit hx (hlead.origin ▸ hi)

/-- Settles O53: the plan changes under the checks of R107 to R112, the pending list where entries fall due, start and come back. -/
theorem pollPlanStaysSound : Obligations.PollPlanStaysSound := by
  unfold Obligations.PollPlanStaysSound
  intro s t hs h
  exact step_keeps (fun s p w hs => hs.congr rfl rfl rfl) (fun s t => plan_quiet) (fun s t => plan_event) hs h

end Sys2Proof.Machine

/-! PROOF. Chains and report queues list exactly the slots they should (O54). The invariant is taken apart: `StoreSound` is about the
records and the lists, `OnBusAt` about the slot on the field bus, so that both can be kept apart while an exchange ends. -/

namespace Sys2Proof.Machine

variable {s t : State}

/-! ### What the invariant reads -/

/-- The slots with their records and generations, and the lists, are the same. -/
structure SameStore (s t : State) : Prop where
  record : ∀ i : SlotIx, t.record i = s.record i
  gen : ∀ i : SlotIx, t.slots[i].gen = s.slots[i].gen
  list : ∀ c : ChainIx, t.chains[c].list = s.chains[c].list
  queue : ∀ p : Port, t.reports[p].queue = s.reports[p].queue

theorem SameStore.trans {u : State} (h : SameStore s t) (k : SameStore t u) : SameStore s u :=
  ⟨fun i => (k.record i).trans (h.record i), fun i => (k.gen i).trans (h.gen i), fun c => (k.list c).trans (h.list c),
    fun p => (k.queue p).trans (h.queue p)⟩

theorem SameStore.ofFields (hs : t.slots = s.slots) (hc : t.chains = s.chains) (hr : t.reports = s.reports) : SameStore s t := by
  constructor <;> intros <;> simp only [State.record, hs, hc, hr]

theorem SameStore.ofReports (hs : t.slots = s.slots) (hc : t.chains = s.chains)
    (hq : ∀ p : Port, t.reports[p].queue = s.reports[p].queue) : SameStore s t := by
  refine ⟨?_, ?_, ?_, hq⟩ <;> intros <;> simp only [State.record, hs, hc]

theorem SameStore.ofQuiet (h : Quiet s t) : SameStore s t :=
  .ofFields (by rw [h.frame]) (by rw [h.frame]) (by rw [h.frame])

/-- The record is in an exchange or waits for one to end (R18, R47). -/
def Record.onBus (r : Record) : Prop := r.state = .active ∨ r.state = .orphaned

/-- Chains and report queues list exactly the slots that R2, R21 and R129 say: `ListsSound` without the slot on the bus. -/
structure State.StoreSound (s : State) : Prop where
  chain_once : ∀ c : ChainIx, s.chains[c].list.Nodup
  chain_lists : ∀ (c : ChainIx) (i : SlotIx), i ∈ s.chains[c].list →
    ∃ r, s.record i = some r ∧ r.inChain ∧ r.owner = some (chainPort c) ∧ r.home = c
  behind_head : ∀ (c : ChainIx) (i : SlotIx), i ∈ s.chains[c].list.tail → ∃ r, s.record i = some r ∧ r.state = .queued
  chain_full : ∀ (i : SlotIx) (r : Record), s.record i = some r → r.inChain → i ∈ s.chains[r.home].list
  queue_once : ∀ p : Port, s.reports[p].queue.Nodup
  queue_lists : ∀ (p : Port) (i : SlotIx), i ∈ s.reports[p].queue → ∃ r, s.record i = some r ∧ r.state = .done ∧ r.owner = some p
  queue_full : ∀ (i : SlotIx) (r : Record), s.record i = some r → r.state = .done → ∃ p, r.owner = some p ∧ i ∈ s.reports[p].queue
  owned : ∀ (i : SlotIx) (r : Record), s.record i = some r → r.owner = none → r.state = .damaged

/-- A slot on the bus is the one that `o` names. -/
def State.OnBusAt (s : State) (o : Option Origin) : Prop :=
  ∀ (i : SlotIx) (r : Record), s.record i = some r → r.onBus → o = some (.record i s.slots[i].gen)

/-- The lists are sound, and a slot on the bus is the one that `o` names. -/
def State.ListsAt (s : State) (o : Option Origin) : Prop := s.StoreSound ∧ s.OnBusAt o

/-- What the exchange in progress is for. -/
def State.busOrigin (s : State) : Option Origin := s.exchange.map Exchange.origin

theorem listsSound_iff : s.ListsSound ↔ s.ListsAt s.busOrigin := by
  constructor
  · intro h
    refine ⟨⟨h.chain_once, h.chain_lists, h.behind_head, h.chain_full, h.queue_once, h.queue_lists, h.queue_full, h.owned⟩, ?_⟩
    intro i r hr hb
    obtain ⟨e, he, ho⟩ := h.on_bus i r hr hb
    rw [State.busOrigin, he, ← ho]
    rfl
  · intro ⟨h, hb⟩
    refine ⟨h.chain_once, h.chain_lists, h.behind_head, h.chain_full, h.queue_once, h.queue_lists, h.queue_full, ?_, h.owned⟩
    intro i r hr hs
    exact Option.map_eq_some_iff.mp (hb i r hr hs)

theorem busOrigin_of_exchange (h : t.exchange = s.exchange) : t.busOrigin = s.busOrigin := by
  rw [State.busOrigin, h, State.busOrigin]

theorem busOrigin_of_idle (h : s.exchange = none) : s.busOrigin = none := by rw [State.busOrigin, h]; rfl

theorem State.StoreSound.congr (h : s.StoreSound) (k : SameStore s t) : t.StoreSound := by
  obtain ⟨kr, -, kl, kq⟩ := k
  constructor <;> simp only [kr, kl, kq]
  · exact h.chain_once
  · exact h.chain_lists
  · exact h.behind_head
  · exact h.chain_full
  · exact h.queue_once
  · exact h.queue_lists
  · exact h.queue_full
  · exact h.owned

theorem State.ListsAt.congr {o : Option Origin} (h : s.ListsAt o) (k : SameStore s t) : t.ListsAt o := by
  refine ⟨h.1.congr k, fun i r hr hb => ?_⟩
  rw [k.gen]
  exact h.2 i r (k.record i ▸ hr) hb

theorem State.ListsSound.congr (h : s.ListsSound) (k : SameStore s t) (hx : t.exchange = s.exchange) : t.ListsSound := by
  rw [listsSound_iff, busOrigin_of_exchange hx]
  exact (listsSound_iff.mp h).congr k

/-- With no slot on the bus it matters not what the bus is for. -/
theorem State.ListsAt.anywhere (h : s.ListsAt none) (o : Option Origin) : s.ListsAt o :=
  ⟨h.1, fun i r hr hb => nomatch h.2 i r hr hb⟩

/-- A slot that has left the bus. -/
theorem State.ListsAt.leftBus {i : SlotIx} {g : Byte} (h : s.ListsAt (some (.record i g)))
    (hi : ∀ r, s.record i = some r → s.slots[i].gen = g → ¬ r.onBus) : s.ListsAt none := by
  refine ⟨h.1, fun j r hr hb => ?_⟩
  have := h.2 j r hr hb
  cases this
  exact absurd hb (hi r hr rfl)

/-! ### What the operations on slots do to it -/

theorem mark_queue (d : Deferred) (p q : Port) : (mark d p s).reports[q].queue = s.reports[q].queue := by
  rw [mark_report]; split <;> rfl

theorem raiseAll_queue (c : Cause) (q : Port) : (raiseAll c s).reports[q].queue = s.reports[q].queue := by
  rw [raiseAll_report]; split <;> rfl

theorem raise_queue (c : Cause) (p q : Port) : (raise c p s).reports[q].queue = s.reports[q].queue := by
  rw [raise_report]; split <;> rfl

theorem same_mark (d : Deferred) (p : Port) : SameStore s (mark d p s) := by
  refine .ofReports ?_ (mark_chains s d p) (mark_queue d p)
  unfold mark; split <;> rfl

theorem same_raise (c : Cause) (p : Port) : SameStore s (raise c p s) := by
  refine .ofReports ?_ ?_ (raise_queue c p) <;> unfold raise <;> split <;> rfl

theorem same_raiseAll (c : Cause) : SameStore s (raiseAll c s) := .ofReports rfl rfl (raiseAll_queue c)

theorem same_markAll (d : Deferred) : SameStore s (markAll d s) :=
  .ofReports rfl rfl fun q => by rw [markAll_report]; split <;> rfl

theorem same_clearMarks : SameStore s (clearMarks s) :=
  .ofReports rfl rfl fun q => by simp only [clearMarks]; rw [tab_get]

theorem same_restoreMarks (m : Marks) : SameStore s (restoreMarks m s) :=
  .ofReports rfl rfl fun q => by simp only [restoreMarks]; rw [tab_get]

theorem same_pendMarks (m : Marks) : SameStore s (pendMarks m s) := by
  refine .ofReports rfl rfl fun q => ?_
  simp only [pendMarks]
  rw [tab_get]
  split
  · unfold Report.pendMarks; split <;> rfl
  · rfl

theorem queue_unlist (i : SlotIx) (p : Port) : (unlist i s).reports[p].queue = s.reports[p].queue.filter (· != i) := by
  rw [unlist_reports, tab_get]

/-- The queue that a slot's note joins: its owner's, once it is DONE (R130). -/
def noteFor (i : SlotIx) (x : Option Record) (p : Port) : List SlotIx :=
  match x with
  | some r => if r.state = .done ∧ r.owner = some p then [i] else []
  | none => []

/-- The view of a state in which slot `i` has left the lists that held it, with what it then holds: no record, a DAMAGED one, or a
DONE one in its owner's queue. -/
structure Leaves (i : SlotIx) (x : Option Record) (s t : State) : Prop where
  record : ∀ j : SlotIx, t.record j = if j = i then x else s.record j
  gen : ∀ j : SlotIx, j ≠ i → t.slots[j].gen = s.slots[j].gen
  list : ∀ c : ChainIx, t.chains[c].list = s.chains[c].list.filter (· != i)
  queue : ∀ p : Port, t.reports[p].queue = s.reports[p].queue.filter (· != i) ++ noteFor i x p

/-- The record a slot is retired with (R19). -/
def Record.retired (r : Record) (k : EndKind) (sweep : Word) : Record :=
  { r with state := .done, endKind := some k, completionSweep := some sweep }

theorem enqueueNote_queue (p q : Port) (i : SlotIx) :
    (enqueueNote p i s).reports[q].queue = s.reports[q].queue ++ if q = p then [i] else [] := by
  rw [enqueueNote, mark_queue]
  dsimp only
  rw [modAt_get]
  split
  · next h => rw [h]
  · rw [List.append_nil]

theorem leaves_retire (i : SlotIx) (r : Record) (k : EndKind) : Leaves i (some (r.retired k s.sweep)) s (retire i r k s) where
  record j := record_retire s i j r k
  gen j hj := by
    unfold retire
    dsimp only
    split
    · rw [enqueueNote, show ∀ u : State, (mark .report _ u).slots = u.slots from fun u => by unfold mark; split <;> rfl]
      dsimp only
      rw [gen_putRecord, unlist_slots]
    · rw [gen_putRecord, unlist_slots]
  list c := list_retire s i r k c
  queue p := by
    unfold retire
    dsimp only
    split
    · next q hq =>
      rw [enqueueNote_queue, putRecord_reports, queue_unlist]
      simp [noteFor, Record.retired, hq, eq_comm]
    · next hq =>
      rw [putRecord_reports, queue_unlist]
      simp [noteFor, Record.retired, hq]

theorem leaves_free (i : SlotIx) : Leaves i none s (freeSlot i (unlist i s)) where
  record j := by rw [record_freeSlot, record_unlist]
  gen j hj := by rw [gen_freeSlot, if_neg hj, unlist_slots]
  list c := by rw [freeSlot_chains, list_unlist]
  queue p := by rw [freeSlot_reports, queue_unlist]; simp [noteFor]

theorem filter_ne_of_notMem {i : SlotIx} {l : List SlotIx} (h : i ∉ l) : l.filter (· != i) = l := by
  rw [List.filter_eq_self]
  intro a ha
  simp only [bne_iff_ne, ne_eq]
  rintro rfl
  exact h ha

theorem leaves_damage {i : SlotIx} {r : Record} (h : s.record i = some r) :
    Leaves i (some { r with state := .damaged }) s (damageSlot i s) := by
  have hd : damageSlot i s = putRecord i { r with state := .damaged } (unlist i s) := by simp only [damageSlot, h]
  rw [hd]
  refine ⟨fun j => ?_, fun j _ => ?_, fun c => ?_, fun p => ?_⟩
  · rw [record_putRecord, record_unlist]
  · rw [gen_putRecord, unlist_slots]
  · rw [putRecord_chains, list_unlist]
  · rw [putRecord_reports, queue_unlist]; simp [noteFor]

/-- A slot that no list holds, freed as it stands. -/
theorem leaves_free_unlisted (h : s.StoreSound) {i : SlotIx} {r : Record} (hr : s.record i = some r) (hc : ¬ r.inChain)
    (hd : r.state ≠ .done) : Leaves i none s (freeSlot i s) where
  record j := record_freeSlot s i j
  gen j hj := by rw [gen_freeSlot, if_neg hj]
  list c := by
    rw [freeSlot_chains, filter_ne_of_notMem fun hm => ?_]
    obtain ⟨r', hr', hin, -⟩ := h.chain_lists c i hm
    cases hr.symm.trans hr'
    exact hc hin
  queue p := by
    rw [freeSlot_reports, filter_ne_of_notMem fun hm => ?_]
    · simp [noteFor]
    · obtain ⟨r', hr', hdone, -⟩ := h.queue_lists p i hm
      cases hr.symm.trans hr'
      exact hd hdone

theorem mem_tail_of_mem_tail_filter {i j : SlotIx} {l : List SlotIx} (h : j ∈ (l.filter (· != i)).tail) :
    j ∈ l.tail ∧ j ≠ i := by
  have hne : j ≠ i := by simpa using (List.mem_filter.mp (List.mem_of_mem_tail h)).2
  refine ⟨?_, hne⟩
  cases l with
  | nil => exact h
  | cons a l =>
    rw [List.filter_cons] at h
    split at h
    · exact List.mem_of_mem_filter h
    · exact List.mem_of_mem_filter (List.mem_of_mem_tail h)

/-- What a slot that leaves its lists may hold: nothing, or a record of no chain, with an owner unless it is DAMAGED. -/
def MayLeave (x : Option Record) : Prop := ∀ r, x = some r → r.state = .damaged ∨ (r.state = .done ∧ r.owner ≠ none)

/-- A slot that leaves its lists keeps the store sound, and puts no slot on the bus. -/
theorem lists_leaves {o : Option Origin} {i : SlotIx} {x : Option Record} (h : s.ListsAt o) (k : Leaves i x s t)
    (hx : MayLeave x) : t.ListsAt o := by
  obtain ⟨h, hb⟩ := h
  have other : ∀ j r, t.record j = some r → j ≠ i → s.record j = some r := fun j r hj hne => by
    rwa [k.record, if_neg hne] at hj
  have self : ∀ r, t.record i = some r → x = some r := fun r hr => by rwa [k.record, if_pos rfl] at hr
  have kept : ∀ j r, s.record j = some r → j ≠ i → t.record j = some r := fun j r hj hne => by rwa [k.record, if_neg hne]
  have note : ∀ p, noteFor i x p ⊆ [i] := fun p j hj => by
    unfold noteFor at hj
    split at hj
    · split at hj
      · exact hj
      · cases hj
    · cases hj
  have notChain : ∀ r, t.record i = some r → ¬ r.inChain := fun r hr hin => by
    obtain hd | ⟨hd, -⟩ := hx r (self r hr) <;> simp [Record.inChain, hd] at hin
  refine ⟨⟨fun c => ?_, fun c j hj => ?_, fun c j hj => ?_, fun j r hr hin => ?_, fun p => ?_, fun p j hj => ?_,
    fun j r hr hd => ?_, fun j r hr ho => ?_⟩, fun j r hr hon => ?_⟩
  · rw [k.list]
    exact (h.chain_once c).filter _
  · rw [k.list, List.mem_filter] at hj
    obtain ⟨r, hr, hrest⟩ := h.chain_lists c j hj.1
    exact ⟨r, kept j r hr (by simpa using hj.2), hrest⟩
  · rw [k.list] at hj
    obtain ⟨hj, hne⟩ := mem_tail_of_mem_tail_filter hj
    obtain ⟨r, hr, hq⟩ := h.behind_head c j hj
    exact ⟨r, kept j r hr hne, hq⟩
  · have hne : j ≠ i := by rintro rfl; exact notChain r hr hin
    rw [k.list, List.mem_filter]
    exact ⟨h.chain_full j r (other j r hr hne) hin, by simpa using hne⟩
  · rw [k.queue]
    refine List.nodup_append'.mpr ⟨(h.queue_once p).filter _, ?_, fun j hj hj' => ?_⟩
    · unfold noteFor
      split
      · split
        · exact List.nodup_singleton i
        · exact List.nodup_nil
      · exact List.nodup_nil
    · obtain rfl := List.mem_singleton.mp (note p hj')
      simp at hj
  · rw [k.queue, List.mem_append] at hj
    obtain hj | hj := hj
    · obtain ⟨hj, hne⟩ := List.mem_filter.mp hj
      obtain ⟨r, hr, hrest⟩ := h.queue_lists p j hj
      exact ⟨r, kept j r hr (by simpa using hne), hrest⟩
    · unfold noteFor at hj
      split at hj
      · next r =>
        split at hj
        · next hd =>
          obtain rfl := List.mem_singleton.mp hj
          exact ⟨r, by rw [k.record, if_pos rfl], hd⟩
        · cases hj
      · cases hj
  · by_cases hne : j = i
    · subst hne
      have hxr := self r hr
      obtain hdam | ⟨-, hown⟩ := hx r hxr
      · rw [hdam] at hd; cases hd
      · obtain ⟨p, hp⟩ := Option.ne_none_iff_exists'.mp hown
        refine ⟨p, hp, ?_⟩
        rw [k.queue]
        simp [noteFor, hxr, hd, hp]
    · obtain ⟨p, hp, hmem⟩ := h.queue_full j r (other j r hr hne) hd
      refine ⟨p, hp, ?_⟩
      rw [k.queue, List.mem_append, List.mem_filter]
      exact .inl ⟨hmem, by simpa using hne⟩
  · by_cases hne : j = i
    · subst hne
      obtain hdam | ⟨-, hown⟩ := hx r (self r hr)
      · exact hdam
      · exact absurd ho hown
    · exact h.owned j r (other j r hr hne) ho
  · have hne : j ≠ i := by
      rintro rfl
      obtain hd | ⟨hd, -⟩ := hx r (self r hr) <;> simp [Record.onBus, hd] at hon
    rw [k.gen j hne]
    exact hb j r (other j r hr hne) hon

/-- A slot that leaves its lists is on the bus no more. -/
theorem lists_leaves_bus {i : SlotIx} {g : Byte} {x : Option Record} (h : s.ListsAt (some (.record i g))) (k : Leaves i x s t)
    (hx : MayLeave x) : t.ListsAt none := by
  refine (lists_leaves h k hx).leftBus fun r hr _ hon => ?_
  rw [k.record, if_pos rfl] at hr
  obtain hd | ⟨hd, -⟩ := hx r hr <;> simp [Record.onBus, hd] at hon

theorem mayLeave_none : MayLeave none := fun _ h => by cases h

theorem mayLeave_retired {r : Record} {k : EndKind} {w : Word} (h : r.owner ≠ none) : MayLeave (some (r.retired k w)) := by
  intro r' hr'
  cases hr'
  exact .inr ⟨rfl, h⟩

theorem mayLeave_damaged {r : Record} : MayLeave (some { r with state := .damaged }) := by
  intro r' hr'
  cases hr'
  exact .inl rfl

/-- The view of a state in which the record of slot `i` was written, and no list changed. -/
structure Writes (i : SlotIx) (r : Record) (s t : State) : Prop where
  record : ∀ j : SlotIx, t.record j = if j = i then some r else s.record j
  gen : ∀ j : SlotIx, t.slots[j].gen = s.slots[j].gen
  list : ∀ c : ChainIx, t.chains[c].list = s.chains[c].list
  queue : ∀ p : Port, t.reports[p].queue = s.reports[p].queue

theorem writes_putRecord (i : SlotIx) (r : Record) : Writes i r s (putRecord i r s) :=
  ⟨fun j => record_putRecord s i j r, fun j => gen_putRecord s i j r, fun _ => rfl, fun _ => rfl⟩

theorem Writes.same {u : State} {i : SlotIx} {r : Record} (h : Writes i r s t) (k : SameStore t u) : Writes i r s u :=
  ⟨fun j => (k.record j).trans (h.record j), fun j => (k.gen j).trans (h.gen j), fun c => (k.list c).trans (h.list c),
    fun p => (k.queue p).trans (h.queue p)⟩

theorem writes_haltHead (c : ChainIx) (i : SlotIx) (r : Record) (why : HaltReason) :
    Writes i { r with state := .halted, haltReason := .known why } s (haltHead c i r why s) :=
  (writes_putRecord i _).same (same_mark .halt _)

theorem home_congr {r r' : Record} (ho : r'.owner = r.owner) (hc : r'.chain = r.chain) : r'.home = r.home := by
  simp only [Record.home, ho, hc]

/-- A record rewritten in place, with its owner and chain: in the state it had, or as a head in any state of a chain's record. -/
theorem store_writes {i : SlotIx} {r r' : Record} (h : s.StoreSound) (k : Writes i r' s t) (hr : s.record i = some r)
    (ho : r'.owner = r.owner) (hc : r'.chain = r.chain)
    (hs : r'.state = r.state ∨ (r.inChain ∧ r'.inChain ∧ ∀ c : ChainIx, i ∉ s.chains[c].list.tail)) : t.StoreSound := by
  have hhome := home_congr ho hc
  have hin : r'.inChain ↔ r.inChain := by
    obtain e | ⟨h1, h2, -⟩ := hs
    · simp only [Record.inChain, e]
    · exact iff_of_true h2 h1
  have hdone : ∀ x : RecordState, x = .done ∨ x = .damaged → (r'.state = x ↔ r.state = x) := fun x hx => by
    obtain e | ⟨h1, h2, -⟩ := hs
    · rw [e]
    · unfold Record.inChain at h1 h2
      obtain rfl | rfl := hx <;> constructor <;> intro e <;> simp [e] at h1 h2
  have split_record : ∀ j q, t.record j = some q → (j = i ∧ q = r') ∨ (j ≠ i ∧ s.record j = some q) := fun j q hj => by
    rw [k.record] at hj
    split at hj
    · next e => cases hj; exact .inl ⟨e, rfl⟩
    · next e => exact .inr ⟨e, hj⟩
  have self : t.record i = some r' := by rw [k.record, if_pos rfl]
  have kept : ∀ j q, j ≠ i → s.record j = some q → t.record j = some q := fun j q hne hj => by rwa [k.record, if_neg hne]
  refine ⟨fun c => ?_, fun c j hj => ?_, fun c j hj => ?_, fun j q hq hqin => ?_, fun p => ?_, fun p j hj => ?_,
    fun j q hq hd => ?_, fun j q hq hown => ?_⟩
  · rw [k.list]; exact h.chain_once c
  · rw [k.list] at hj
    obtain ⟨q, hq, hqin, hqo, hqh⟩ := h.chain_lists c j hj
    by_cases e : j = i
    · subst e
      cases hr.symm.trans hq
      exact ⟨r', self, hin.mpr hqin, ho.trans hqo, hhome.trans hqh⟩
    · exact ⟨q, kept j q e hq, hqin, hqo, hqh⟩
  · rw [k.list] at hj
    obtain ⟨q, hq, hqs⟩ := h.behind_head c j hj
    by_cases e : j = i
    · subst e
      cases hr.symm.trans hq
      obtain hs | ⟨-, -, hs⟩ := hs
      · exact ⟨r', self, hs.trans hqs⟩
      · exact absurd hj (hs c)
    · exact ⟨q, kept j q e hq, hqs⟩
  · rw [k.list]
    obtain ⟨rfl, rfl⟩ | ⟨-, hq⟩ := split_record j q hq
    · rw [hhome]; exact h.chain_full j r hr (hin.mp hqin)
    · exact h.chain_full j q hq hqin
  · rw [k.queue]; exact h.queue_once p
  · rw [k.queue] at hj
    obtain ⟨q, hq, hqd, hqo⟩ := h.queue_lists p j hj
    by_cases e : j = i
    · subst e
      cases hr.symm.trans hq
      exact ⟨r', self, (hdone _ (.inl rfl)).mpr hqd, ho.trans hqo⟩
    · exact ⟨q, kept j q e hq, hqd, hqo⟩
  · simp only [k.queue]
    obtain ⟨rfl, rfl⟩ | ⟨-, hq⟩ := split_record j q hq
    · rw [ho]; exact h.queue_full j r hr ((hdone _ (.inl rfl)).mp hd)
    · exact h.queue_full j q hq hd
  · obtain ⟨rfl, rfl⟩ | ⟨-, hq⟩ := split_record j q hq
    · exact (hdone _ (.inr rfl)).mpr (h.owned j r hr (ho ▸ hown))
    · exact h.owned j q hq hown

/-- A record rewritten in place that is on the bus only if it was. -/
theorem lists_writes {o : Option Origin} {i : SlotIx} {r r' : Record} (h : s.ListsAt o) (k : Writes i r' s t)
    (hr : s.record i = some r) (ho : r'.owner = r.owner) (hc : r'.chain = r.chain)
    (hs : r'.state = r.state ∨ (r.inChain ∧ r'.inChain ∧ ∀ c : ChainIx, i ∉ s.chains[c].list.tail)) (hb : r'.onBus → r.onBus) :
    t.ListsAt o := by
  refine ⟨store_writes h.1 k hr ho hc hs, fun j q hq hon => ?_⟩
  rw [k.gen]
  rw [k.record] at hq
  split at hq
  · next e => cases hq; exact e ▸ h.2 i r hr (hb hon)
  · exact h.2 j q hq hon

end Sys2Proof.Machine

/-! PROOF. The lists through retirements, tries, offers, turnovers, session ends and RESTART; O54. -/

namespace Sys2Proof.Machine

variable {s t : State} {o : Option Origin}

theorem listsSound_of_idle (h : s.ListsAt none) (hx : s.exchange = none) : s.ListsSound := by
  rw [listsSound_iff, busOrigin_of_idle hx]
  exact h

theorem State.ListsSound.atIdle (h : s.ListsSound) (hx : s.exchange = none) : s.ListsAt none := by
  rw [← busOrigin_of_idle hx]
  exact listsSound_iff.mp h

/-- An operation that keeps the lists wherever the bus is, and keeps the exchange. -/
theorem State.ListsSound.map (h : s.ListsSound) (hx : t.exchange = s.exchange) (k : ∀ o, s.ListsAt o → t.ListsAt o) :
    t.ListsSound := by
  rw [listsSound_iff, busOrigin_of_exchange hx]
  exact k _ (listsSound_iff.mp h)

/-! ### Heads and members of chains -/

theorem State.StoreSound.member_owner (h : s.StoreSound) {c : ChainIx} {i : SlotIx} {r : Record} (hi : i ∈ s.chains[c].list)
    (hr : s.record i = some r) : r.inChain ∧ r.owner = some (chainPort c) ∧ r.home = c := by
  obtain ⟨r', hr', hrest⟩ := h.chain_lists c i hi
  cases hr.symm.trans hr'
  exact hrest

section
variable {c : ChainIx} {i : SlotIx} {r : Record} (hh : s.head c = some (i, r))
include hh

theorem head_mem : i ∈ s.chains[c].list := List.mem_of_head? (head_slot s hh).1

theorem head_list : ∃ rest : List SlotIx, s.chains[c].list = i :: rest := by
  obtain ⟨hl, -⟩ := head_slot s hh
  cases h : s.chains[c].list with
  | nil => rw [h] at hl; cases hl
  | cons a rest => rw [h] at hl; cases hl; exact ⟨rest, rfl⟩

theorem State.StoreSound.head_chain (h : s.StoreSound) : r.inChain ∧ r.owner = some (chainPort c) ∧ r.home = c :=
  h.member_owner (head_mem hh) (head_slot s hh).2

/-- A head is behind no head. -/
theorem State.StoreSound.head_notMem_tail (h : s.StoreSound) (d : ChainIx) : i ∉ s.chains[d].list.tail := by
  intro hi
  obtain ⟨hl, hr⟩ := head_slot s hh
  have hd : d = c := by
    rw [← (h.member_owner (List.mem_of_mem_tail hi) hr).2.2, (h.head_chain hh).2.2]
  subst hd
  obtain ⟨rest, hrest⟩ := head_list hh
  have hnd := h.chain_once d
  rw [hrest] at hnd hi
  exact (List.nodup_cons.mp hnd).1 hi

/-- A head rewritten in a state of a chain's record. -/
theorem lists_head {r' : Record} (h : s.ListsAt o) (k : Writes i r' s t) (ho : r'.owner = r.owner) (hc : r'.chain = r.chain)
    (hs : r'.inChain) (hb : r'.onBus → r.onBus) : t.ListsAt o :=
  lists_writes h k (head_slot s hh).2 ho hc (.inr ⟨(h.1.head_chain hh).1, hs, h.1.head_notMem_tail hh⟩) hb

theorem lists_haltHead (h : s.ListsAt o) (d : ChainIx) (why : HaltReason) : (haltHead d i r why s).ListsAt o :=
  lists_head hh h (writes_haltHead d i r why) rfl rfl (.inr (.inr rfl)) (by simp [Record.onBus])

end

/-! ### Retirement and damage -/

theorem lists_retire {i : SlotIx} {r : Record} (h : s.ListsAt o) (k : EndKind) (hr : r.owner ≠ none) :
    (retire i r k s).ListsAt o := lists_leaves h (leaves_retire i r k) (mayLeave_retired hr)

theorem lists_retireSlot (h : s.ListsAt o) (k : EndKind) {i : SlotIx} (hi : ∀ r, s.record i = some r → r.owner ≠ none) :
    (retireSlot i k s).ListsAt o := by
  unfold retireSlot
  split
  · next r hr => exact lists_retire h k (hi r hr)
  · exact h

/-- Retirement keeps every record's owner. -/
theorem retireSlot_owner {k : EndKind} {i j : SlotIx} {r : Record} (hr : (retireSlot i k s).record j = some r) :
    ∃ r' : Record, s.record j = some r' ∧ r.owner = r'.owner := by
  unfold retireSlot at hr
  split at hr
  · next q hq =>
    rw [record_retire] at hr
    split at hr
    · next e => cases hr; exact ⟨q, e ▸ hq, rfl⟩
    · exact ⟨r, hr, rfl⟩
  · exact ⟨r, hr, rfl⟩

theorem lists_retireAll (h : s.ListsAt o) (k : EndKind) {l : List SlotIx}
    (hl : ∀ i ∈ l, ∀ r, s.record i = some r → r.owner ≠ none) : (retireAll k l s).ListsAt o := by
  induction l generalizing s with
  | nil => exact h
  | cons i l ih =>
    refine ih (lists_retireSlot h k (hl i (.head _))) fun j hj r hr => ?_
    obtain ⟨r', hr', he⟩ := retireSlot_owner hr
    exact he ▸ hl j (.tail _ hj) r' hr'

theorem lists_damageSlot (h : s.ListsAt o) (i : SlotIx) : (damageSlot i s).ListsAt o := by
  cases hr : s.record i with
  | none => unfold damageSlot; rw [hr]; exact h
  | some r => exact lists_leaves h (leaves_damage hr) mayLeave_damaged

/-- Records of a chain have an owner. -/
theorem State.StoreSound.chain_owned (h : s.StoreSound) {c : ChainIx} {i : SlotIx} (hi : i ∈ s.chains[c].list) :
    ∀ r, s.record i = some r → r.owner ≠ none := fun r hr => by
  rw [(h.member_owner hi hr).2.1]; simp

theorem lists_setCancelPending (h : s.ListsAt o) {i : SlotIx} {r : Record} (hr : s.record i = some r) :
    (setCancelPending i r s).ListsAt o := by
  unfold setCancelPending
  split
  · exact h
  · exact lists_writes h (writes_putRecord i _) hr rfl rfl (.inl rfl) id

/-- A flush retires records of the chain, and may mark its ACTIVE head (R40). -/
theorem lists_flushChain (h : s.ListsAt o) (c : ChainIx) : (flushChain c s).2.2.ListsAt o := by
  unfold flushChain
  split
  · next i r hh =>
    split
    · refine lists_retireAll (lists_setCancelPending h (head_slot s hh).2) _ fun j hj q hq => ?_
      have hj' := List.mem_of_mem_tail hj
      unfold setCancelPending at hq
      split at hq
      · exact h.1.chain_owned hj' q hq
      · rw [record_putRecord] at hq
        split at hq
        · next e => cases hq; subst e; exact h.1.chain_owned hj' r (head_slot s hh).2
        · exact h.1.chain_owned hj' q hq
    · exact lists_retireAll h _ fun j hj => h.1.chain_owned hj
  · exact h

/-! ### Tries and their ends -/

theorem same_grantTo (c : ChainIx) : SameStore s (grantTo c s) :=
  ⟨fun i => by rw [State.record, grantTo_slots]; rfl, fun i => by rw [grantTo_slots], grantTo_list s c,
    fun p => by rw [grantTo_reports]⟩

/-- A try starts on an idle engine: the head becomes the one slot on the bus, or leaves the chain, or stays HALTED (R26). -/
theorem lists_tryStart (h : s.ListsAt none) (hx : s.exchange = none) (c : ChainIx) : (tryStart c s).ListsSound := by
  unfold tryStart
  split
  · exact listsSound_of_idle (h.congr (.ofFields rfl rfl rfl)) hx
  · next i r hh =>
    split
    · exact listsSound_of_idle ((lists_damageSlot h i).congr (same_raiseAll .fault |>.trans (.ofFields rfl rfl rfl)))
        ((store_damageSlot s i).exchange.trans hx)
    · split
      · exact listsSound_of_idle ((lists_haltHead hh h c .fenced).congr (.ofFields rfl rfl rfl))
          ((store_haltHead s c i r .fenced).exchange.trans hx)
      · have k : Writes i { r with state := .active } s
            (startExchange (recordExchange s i r) (putRecord i { r with state := .active } s)) :=
          (writes_putRecord i _).same (.ofFields rfl rfl rfl)
        rw [listsSound_iff]
        refine ⟨store_writes h.1 k (head_slot s hh).2 rfl rfl
          (.inr ⟨(h.1.head_chain hh).1, .inr (.inl rfl), h.1.head_notMem_tail hh⟩), fun j q hq hon => ?_⟩
        rw [k.record] at hq
        split at hq
        · next e => rw [k.gen, e, ← recordExchange_origin s i r]; rfl
        · exact nomatch h.2 j q hq hon

theorem lists_grant_tryStart (h : s.ListsSound) (hx : s.exchange = none) (c : ChainIx) : (tryStart c (grantTo c s)).ListsSound :=
  lists_tryStart ((h.atIdle hx).congr (same_grantTo c)) ((grantTo_exchange s c).trans hx) c

theorem lists_startPoll (h : s.ListsSound) (hx : s.exchange = none) : (startPoll s).ListsSound := by
  unfold startPoll
  split
  · exact h
  · split
    · exact h.congr (.ofFields rfl rfl rfl) rfl
    · rw [listsSound_iff]
      exact ((h.atIdle hx).anywhere _).congr (.ofFields rfl rfl rfl)

theorem lists_offerBus (h : s.ListsSound) : (offerBus s).ListsSound := by
  refine offerBus_keeps (I := State.ListsSound) ?_ ?_ ?_ ?_ h
  · exact fun s h => h.congr (.ofFields rfl rfl rfl) rfl
  · exact fun s h => h.congr (.ofFields rfl rfl rfl) rfl
  · exact fun s hm _ h => lists_startPoll h (mayOffer_idle hm)
  · exact fun s c hm _ h => lists_grant_tryStart h (mayOffer_idle hm) c

theorem lists_burstContinue (h : s.ListsAt none) (hx : s.exchange = none) (c : ChainIx) : (burstContinue c s).ListsSound := by
  unfold burstContinue
  split
  · split
    · split
      · refine lists_tryStart ?_ ?_ c
        · exact h.congr (.ofFields rfl rfl rfl)
        · exact hx
      · exact listsSound_of_idle (h.congr (.ofFields rfl rfl rfl)) hx
    · exact listsSound_of_idle h hx
  · exact listsSound_of_idle h hx

/-- The records a SHORT head skips are in its chain (R30). -/
theorem groupRest_subset (l : List SlotIx) : s.groupRest l ⊆ l := by
  induction l with
  | nil => exact List.Subset.refl _
  | cons i l ih =>
    unfold State.groupRest
    split
    · split
      · exact List.cons_subset_cons _ (List.nil_subset _)
      · exact List.cons_subset_cons _ ih
    · exact List.cons_subset_cons _ ih

theorem lists_skipGroup (h : s.ListsAt o) (r : Record) (out : Outcome) : (skipGroup r out s).ListsAt o := by
  unfold skipGroup
  split
  · exact lists_retireAll h _ fun i hi => h.1.chain_owned (groupRest_subset _ hi)
  · exact h

/-- The end of a try keeps what places the record. -/
theorem afterTry_place (r : Record) (e : TryEnd) :
    (r.afterTry e).owner = r.owner ∧ (r.afterTry e).chain = r.chain ∧ (r.afterTry e).state = r.state := by
  unfold Record.afterTry
  split <;> exact ⟨rfl, rfl, rfl⟩

section
variable {i : SlotIx} {g : Byte} {r r' : Record} (h : s.ListsAt (some (.record i g)))
include h

theorem lists_leaveCompleted (out : Outcome) (hr : r.owner ≠ none) : (leaveCompleted i r out s).ListsAt none := by
  unfold leaveCompleted
  split
  · exact lists_leaves_bus h (leaves_free i) mayLeave_none
  · exact lists_leaves_bus h (leaves_retire i r _) (mayLeave_retired hr)

variable (hr : s.record i = some r) (hs : r.state = .active)
include hr hs

/-- An ACTIVE record is the head of its chain. -/
theorem active_notMem_tail (c : ChainIx) : i ∉ s.chains[c].list.tail := by
  intro hi
  obtain ⟨q, hq, hqs⟩ := h.1.behind_head c i hi
  cases hr.symm.trans hq
  rw [hs] at hqs
  cases hqs

/-- An ACTIVE record that stays in its chain, QUEUED or HALTED, is on the bus no more. -/
theorem lists_keptHead (k : Writes i r' s t) (ho : r'.owner = r.owner) (hc : r'.chain = r.chain)
    (hs' : r'.state = .queued ∨ r'.state = .halted) : t.ListsAt none := by
  have hb : ¬ r'.onBus := by obtain e | e := hs' <;> simp [Record.onBus, e]
  have hin : r'.inChain := by obtain e | e := hs' <;> simp [Record.inChain, e]
  have hall := lists_writes h k hr ho hc (.inr ⟨.inr (.inl hs), hin, active_notMem_tail h hr hs⟩) fun hb' => absurd hb' hb
  refine hall.leftBus fun q hq _ => ?_
  rw [k.record, if_pos rfl] at hq
  cases hq
  exact hb

variable (hx : s.exchange = none)
include hx

theorem lists_requeueHead (ho : r'.owner = r.owner) (hc : r'.chain = r.chain) : (requeueHead i r' s).ListsSound := by
  have k : Writes i { r' with state := .queued } s (requeueHead i r' s) := (writes_putRecord i _).same (.ofFields rfl rfl rfl)
  exact listsSound_of_idle (lists_keptHead h hr hs k ho hc (.inl rfl)) hx

theorem lists_haltAfterTry (ho : r'.owner = r.owner) (hc : r'.chain = r.chain) (why : HaltReason) :
    (haltAfterTry i r' why s).ListsSound := by
  have k : Writes i { r' with state := .halted, haltReason := .known why } s (haltAfterTry i r' why s) :=
    (writes_haltHead r'.home i r' why).same (.ofFields rfl rfl rfl)
  exact listsSound_of_idle (lists_keptHead h hr hs k ho hc (.inr rfl)) ((store_haltHead s _ i r' why).exchange.trans hx)

/-- However a try ended, the lists are sound after it. -/
theorem lists_tryResult (k : TryResult i r s t) : t.ListsSound := by
  have hown : r.owner ≠ none := fun ho => by
    have := h.1.owned i r hr ho
    rw [hs] at this
    cases this
  cases k with
  | @completes r' out res he =>
    obtain ⟨e, rfl⟩ := he
    have hleft := lists_leaveCompleted h (r := (r.afterTry e).completed res) out ((afterTry_place r e).1 ▸ hown)
    exact lists_burstContinue (lists_skipGroup hleft _ _)
      (((store_leaveCompleted s i _ _).trans (store_skipGroup _ _ _)).exchange.trans hx) _
  | cancelled he =>
    obtain ⟨e, rfl⟩ := he
    have hleft := lists_leaves_bus h (leaves_retire i (r.afterTry e) .cancelled) (mayLeave_retired ((afterTry_place r e).1 ▸ hown))
    exact listsSound_of_idle (hleft.congr (.ofFields rfl rfl rfl)) ((store_retire s i _ _).exchange.trans hx)
  | requeued he =>
    obtain ⟨e, rfl⟩ := he
    obtain ⟨ho, hc, -⟩ := afterTry_place r e
    exact lists_requeueHead h hr hs hx ho hc
  | halted he =>
    obtain ⟨e, rfl⟩ := he
    obtain ⟨ho, hc, -⟩ := afterTry_place r e
    exact lists_haltAfterTry h hr hs hx ho hc _
  | spent he =>
    obtain ⟨e, rfl⟩ := he
    obtain ⟨ho, hc, -⟩ := afterTry_place r e
    unfold spendBudget
    split
    · exact lists_requeueHead h hr hs hx ho hc
    · dsimp only
      split
      · refine lists_haltAfterTry h hr hs hx ?_ ?_ _
        · exact ho
        · exact hc
      · refine lists_requeueHead h hr hs hx ?_ ?_
        · exact ho
        · exact hc

end

/-! ### The end of an exchange -/

theorem lists_recordOutcome {e : Exchange} {i : SlotIx} {g : Byte} (h : s.ListsAt (some (.record i g))) (hx : s.exchange = none)
    (he : e.origin = .record i g) (out : Outcome) (words : List Word) : (recordOutcome e i g out words s).ListsSound := by
  generalize ht : recordOutcome e i g out words s = t
  cases ht ▸ recordOutcome_result e i g out words s with
  | nothing hn =>
    refine listsSound_of_idle (h.leftBus fun r hr hg hb => ?_) hx
    obtain ⟨ha, ho⟩ := hn r hr hg
    exact hb.elim ha ho
  | @freed r hr hs =>
    have hc : ¬ r.inChain := fun hc => by simp [Record.inChain, hs] at hc
    exact listsSound_of_idle (lists_leaves_bus h (leaves_free_unlisted h.1 hr hc (by simp [hs])) mayLeave_none) hx
  | tried hr hs hg hres => exact lists_tryResult h hr hs hx hres
  | @writes r old =>
    rw [listsSound_iff]
    have : (startExchange (writePhase s e r old) s).busOrigin = some (.record i g) := congrArg some he
    rw [this]
    exact h.congr (.ofFields rfl rfl rfl)

theorem same_pollOutcome (i : PollIx) (edit : Byte) (out : Outcome) (words : List Word) :
    SameStore s (pollOutcome i edit out words s) ∧ (pollOutcome i edit out words s).exchange = s.exchange := by
  unfold pollOutcome
  split
  · exact ⟨.ofFields rfl rfl rfl, rfl⟩
  · split
    · exact ⟨.ofFields rfl rfl rfl, rfl⟩
    · split
      · split <;> exact ⟨.ofFields rfl rfl rfl, rfl⟩
      · dsimp only
        split
        · split
          · refine ⟨SameStore.trans ?_ (same_mark _ _), (store_mark _ _ _).exchange⟩
            exact .ofFields rfl rfl rfl
          · exact ⟨.ofFields rfl rfl rfl, rfl⟩
        · exact ⟨.ofFields rfl rfl rfl, rfl⟩

theorem lists_handOff {e : Exchange} (h : s.ListsAt (some e.origin)) (hx : s.exchange = none) (out : Outcome) (words : List Word) :
    (handOff e out words s).ListsSound := by
  unfold handOff
  split
  · next i g he => exact lists_recordOutcome (he ▸ h) hx he out words
  · next i edit he =>
    obtain ⟨k, hk⟩ := same_pollOutcome (s := s) i edit out words
    have hfree : s.ListsAt none := ⟨h.1, fun j r hr hb => by
      have := h.2 j r hr hb
      rw [he] at this
      cases this⟩
    exact listsSound_of_idle (hfree.congr k) (hk.trans hx)

theorem same_updateTarget (e : Exchange) (out : Outcome) : SameStore s (updateTarget e out s) := by
  unfold updateTarget
  split
  · exact .ofFields rfl rfl rfl
  · split
    · exact .ofFields rfl rfl rfl
    · dsimp only
      split
      · refine SameStore.trans ?_ (same_markAll _)
        exact .ofFields rfl rfl rfl
      · exact .ofFields rfl rfl rfl

theorem lists_drained (h : s.ListsSound) : (drained s).ListsSound := by
  unfold drained
  split
  · exact h.congr (.ofFields rfl rfl rfl) rfl
  · exact h

/-! ### Decisions and the turnover -/

/-- RESTART's disposal of a slot (R161). -/
theorem lists_disposeDamaged (h : s.ListsAt o) (i : SlotIx) : (disposeDamaged s i).ListsAt o := by
  unfold disposeDamaged
  split
  · exact h
  · next r hr =>
    split
    · next hs =>
      have hc : ¬ r.inChain := fun hc => by simp [Record.inChain, hs] at hc
      have hfree := lists_leaves h (leaves_free_unlisted h.1 hr hc (by simp [hs])) mayLeave_none
      split
      · next p hp =>
        split
        · exact lists_retire h _ (by simp [hp])
        · exact hfree
      · exact hfree
    · exact h

theorem lists_applyChange (h : s.ListsAt o) (c : Change) : (applyChange c s).ListsAt o := by
  cases c
  case restart =>
    rw [applyChange_restart]
    have hall := foldl_keeps (I := fun s => s.ListsAt o) (fun s i h => lists_disposeDamaged h i) (List.finRange 128) h
    generalize (List.finRange 128).foldl disposeDamaged s = u at hall
    exact hall.congr (.ofFields rfl rfl rfl)
  all_goals exact h.congr (.ofFields rfl rfl rfl)

theorem lists_decideProposal (h : s.ListsAt o) (pr : Proposal) (v : Verdict) : (decideProposal pr v s).ListsAt o := by
  have happlied : (if v = .adopted then applyChange pr.change s else s).ListsAt o := by
    split
    · exact lists_applyChange h _
    · exact h
  have hrecorded : ∀ u : State, u.ListsAt o → ∀ d, ({ u with decision := d, proposal := none } : State).ListsAt o :=
    fun u hu d => hu.congr (.ofFields rfl rfl rfl)
  exact (hrecorded _ happlied _).congr (same_raiseAll .decided)

theorem lists_leaveProposal (h : s.ListsAt o) (p : Port) : (leaveProposal p s).ListsAt o := by
  unfold leaveProposal
  split
  · exact h
  · split
    · exact h
    · dsimp only
      split_ifs
      · exact lists_decideProposal h _ _
      · exact lists_decideProposal h _ _
      · exact h.congr (.ofFields rfl rfl rfl)

theorem lists_lowerWindow (h : s.ListsAt o) : (lowerWindow s).ListsAt o := by
  unfold lowerWindow
  split
  · exact h
  · dsimp only
    split
    · exact lists_decideProposal h _ _
    · exact h.congr (.ofFields rfl rfl rfl)

theorem lists_checkDeadline (h : s.ListsAt o) (c : ChainIx) : (checkDeadline s c).ListsAt o := by
  unfold checkDeadline
  split
  · next i r hh =>
    split
    · exact lists_haltHead hh h c _
    · exact h
  · exact h

theorem same_lowerLease (e : ResvIx) : SameStore s (lowerLease s e) := by
  unfold lowerLease
  split
  · exact .ofFields rfl rfl rfl
  · split
    · refine SameStore.trans ?_ (same_raise _ _)
      exact .ofFields rfl rfl rfl
    · exact .ofFields rfl rfl rfl

theorem lists_turnoverReactions (h : s.ListsAt o) (m : Marks) : (turnoverReactions m (advanceSweep s)).ListsAt o := by
  refine turnoverReactions_keeps (I := fun s => s.ListsAt o) ?_ ?_ ?_ ?_ ?_ ?_ h
  · exact fun s h => h.congr (.ofFields rfl rfl rfl)
  · exact fun s h => h.congr (same_pendMarks m)
  · exact fun s h => h.congr (.ofFields (pollTurnover_slots s) (pollTurnover_chains s) (pollTurnover_reports s))
  · exact fun s c h => lists_checkDeadline h c
  · exact fun s e h => h.congr (same_lowerLease e)
  · exact fun s h => lists_lowerWindow h

theorem lowerLease_exchange (e : ResvIx) : (lowerLease s e).exchange = s.exchange := by
  unfold lowerLease
  split
  · rfl
  · split
    · exact (store_raise _ _ _).exchange
    · rfl

theorem turnoverReactions_exchange (m : Marks) : (turnoverReactions m (advanceSweep s)).exchange = s.exchange := by
  refine turnoverReactions_keeps (I := fun t => t.exchange = s.exchange) ?_ ?_ ?_ ?_ ?_ ?_ rfl
  · exact fun s h => h
  · exact fun s h => h
  · exact fun s h => (pollTurnover_exchange s).trans h
  · exact fun s c h => (store_checkDeadline s c).exchange.trans h
  · exact fun s e h => (lowerLease_exchange e).trans h
  · exact fun s h => (decision_lowerWindow s).exchange.trans h

theorem lists_turnoverEvent (h : s.ListsSound) (m : Marks) : (turnoverEvent m s).ListsSound := by
  unfold turnoverEvent
  exact lists_offerBus (h.map (turnoverReactions_exchange m) fun o h => lists_turnoverReactions h m)

theorem lists_endExchange {e e' : Exchange} (h : s.ListsSound) (hx : s.exchange = some e) (he : e'.origin = e.origin)
    (out : Outcome) (words : List Word) : (endExchange e' out words s).ListsSound := by
  unfold endExchange
  refine afterExchange_keeps (I := State.ListsSound) ?_ ?_ ?_ ?_
  · exact lists_drained
  · exact fun s _ h => lists_turnoverEvent h _
  · exact fun s h => lists_offerBus (h.congr (same_restoreMarks _) rfl)
  · have hb : s.busOrigin = some e'.origin := by rw [State.busOrigin, hx, he]; rfl
    have h' := hb ▸ listsSound_iff.mp h
    have hclear : ({ clearMarks s with exchange := none } : State).ListsAt (some e'.origin) :=
      h'.congr (same_clearMarks.trans (.ofFields rfl rfl rfl))
    exact lists_handOff (hclear.congr (same_updateTarget e' out)) (updateTarget_exchange e' out) out words

/-! ### Session ends -/

theorem record_leaveBlocks (p : Port) (i : SlotIx) : (leaveBlocks p s).slots[i] = s.slots[i].sessionEnd p := by
  simp only [leaveBlocks]; rw [tab_get]

theorem chain_leaveBlocks (p : Port) (c : ChainIx) :
    (leaveBlocks p s).chains[c] = if chainPort c = p then Chain.powerOn else s.chains[c] := by
  simp only [leaveBlocks]; rw [tab_get]

theorem report_leaveBlocks (p q : Port) : (leaveBlocks p s).reports[q] = if q = p then Report.powerOn else s.reports[q] := by
  simp only [leaveBlocks]; rw [modAt_get]

/-- A slot that a session end leaves as it is: its owner is another, or it is ORPHANED already (R17). -/
theorem sessionEnd_kept {p : Port} {sl : Slot} {r : Record} (hr : sl.record = some r) (h : r.owner ≠ some p ∨ r.state = .orphaned) :
    sl.sessionEnd p = sl := by
  unfold Slot.sessionEnd
  rw [hr]
  dsimp only
  by_cases ho : r.owner ≠ some p
  · rw [if_pos ho]
  · rw [if_neg ho]
    obtain h | h := h
    · exact absurd h ho
    · rw [h]

/-- What a slot that is held after a session end held before it (R17). -/
theorem sessionEnd_held {p : Port} {sl : Slot} {r' : Record} (h : (sl.sessionEnd p).record = some r') :
    ∃ r : Record, sl.record = some r ∧ (sl.sessionEnd p).gen = sl.gen ∧
      ((r.owner ≠ some p ∧ r' = r) ∨
        (r.owner = some p ∧ r.onBus ∧ r' = { r with state := .orphaned }) ∨
        (r.owner = some p ∧ r.state = .damaged ∧ r' = { r with owner := none })) := by
  unfold Slot.sessionEnd at h ⊢
  cases hr : sl.record with
  | none => rw [hr] at h; cases hr.symm.trans h
  | some r =>
    rw [hr] at h
    dsimp only at h ⊢
    by_cases ho : r.owner ≠ some p
    · rw [if_pos ho] at h ⊢
      cases hr.symm.trans h
      exact ⟨_, rfl, rfl, .inl ⟨ho, rfl⟩⟩
    · rw [if_neg ho] at h ⊢
      have ho := not_not.mp ho
      refine ⟨r, rfl, ?_⟩
      cases hs : r.state <;> rw [hs] at h <;> dsimp only at h ⊢
      · cases h
      · cases h; exact ⟨rfl, .inr (.inl ⟨ho, .inl hs, rfl⟩)⟩
      · cases h
      · cases h
      · obtain rfl := Option.some.inj (hr.symm.trans h)
        refine ⟨rfl, .inr (.inl ⟨ho, .inr hs, ?_⟩)⟩
        rw [← hs]
      · cases h; exact ⟨rfl, .inr (.inr ⟨ho, rfl, by rw [← hs]⟩)⟩

theorem leaveBlocks_held {p : Port} {i : SlotIx} {r' : Record} (h : (leaveBlocks p s).record i = some r') :
    ∃ r : Record, s.record i = some r ∧ (leaveBlocks p s).slots[i].gen = s.slots[i].gen ∧
      ((r.owner ≠ some p ∧ r' = r) ∨
        (r.owner = some p ∧ r.onBus ∧ r' = { r with state := .orphaned }) ∨
        (r.owner = some p ∧ r.state = .damaged ∧ r' = { r with owner := none })) := by
  unfold State.record at h
  rw [record_leaveBlocks] at h ⊢
  exact sessionEnd_held h

theorem leaveBlocks_kept {p : Port} {i : SlotIx} {r : Record} (h : s.record i = some r)
    (ho : r.owner ≠ some p ∨ r.state = .orphaned) : (leaveBlocks p s).record i = some r := by
  unfold State.record at h ⊢
  rw [record_leaveBlocks, sessionEnd_kept h ho]
  exact h

/-- A session end empties the lists of its port, and moves no slot of another (R17, R42, R141). -/
theorem lists_leaveBlocks (h : s.ListsAt o) (p : Port) : (leaveBlocks p s).ListsAt o := by
  obtain ⟨h, hb⟩ := h
  have chain : ∀ c i, i ∈ (leaveBlocks p s).chains[c].list → chainPort c ≠ p ∧ i ∈ s.chains[c].list := fun c i hi => by
    rw [chain_leaveBlocks] at hi
    split at hi
    · cases hi
    · next hc => exact ⟨hc, hi⟩
  have queue : ∀ q i, i ∈ (leaveBlocks p s).reports[q].queue → q ≠ p ∧ i ∈ s.reports[q].queue := fun q i hi => by
    rw [report_leaveBlocks] at hi
    split at hi
    · cases hi
    · next hq => exact ⟨hq, hi⟩
  have kept : ∀ (i : SlotIx) (r : Record) (q : Port), s.record i = some r → r.owner = some q → q ≠ p →
      (leaveBlocks p s).record i = some r := fun i r q hr ho hq =>
    leaveBlocks_kept hr (.inl (by rw [ho]; simpa using hq))
  refine ⟨⟨fun c => ?_, fun c i hi => ?_, fun c i hi => ?_, fun i r' hr' hin => ?_, fun q => ?_, fun q i hi => ?_,
    fun i r' hr' hd => ?_, fun i r' hr' ho => ?_⟩, fun i r' hr' hon => ?_⟩
  · rw [chain_leaveBlocks]
    split
    · exact List.nodup_nil
    · exact h.chain_once c
  · obtain ⟨hc, hi⟩ := chain c i hi
    obtain ⟨r, hr, hin, ho, hh⟩ := h.chain_lists c i hi
    exact ⟨r, kept i r _ hr ho hc, hin, ho, hh⟩
  · have hmem := chain c i (List.mem_of_mem_tail hi)
    rw [chain_leaveBlocks, if_neg hmem.1] at hi
    obtain ⟨r, hr, hq⟩ := h.behind_head c i hi
    exact ⟨r, kept i r _ hr (h.member_owner hmem.2 hr).2.1 hmem.1, hq⟩
  · obtain ⟨r, hr, -, ⟨ho, rfl⟩ | ⟨-, -, rfl⟩ | ⟨-, hs, rfl⟩⟩ := leaveBlocks_held hr'
    · have hmem := h.chain_full i r' hr hin
      rw [(h.member_owner hmem hr).2.1] at ho
      rw [chain_leaveBlocks, if_neg (by simpa using ho)]
      exact hmem
    · simp [Record.inChain] at hin
    · simp [Record.inChain, hs] at hin
  · rw [report_leaveBlocks]
    split
    · exact List.nodup_nil
    · exact h.queue_once q
  · obtain ⟨hq, hi⟩ := queue q i hi
    obtain ⟨r, hr, hd, ho⟩ := h.queue_lists q i hi
    exact ⟨r, kept i r q hr ho hq, hd, ho⟩
  · obtain ⟨r, hr, -, ⟨ho, rfl⟩ | ⟨-, -, rfl⟩ | ⟨-, hs, rfl⟩⟩ := leaveBlocks_held hr'
    · obtain ⟨q, hq, hmem⟩ := h.queue_full i r' hr hd
      refine ⟨q, hq, ?_⟩
      rw [hq] at ho
      rw [report_leaveBlocks, if_neg (by simpa using ho)]
      exact hmem
    · cases hd
    · cases hs.symm.trans hd
  · obtain ⟨r, hr, -, ⟨-, rfl⟩ | ⟨hp, -, rfl⟩ | ⟨-, hs, rfl⟩⟩ := leaveBlocks_held hr'
    · exact h.owned i r' hr ho
    · cases hp.symm.trans ho
    · exact hs
  · obtain ⟨r, hr, hg, ⟨-, rfl⟩ | ⟨-, hbus, rfl⟩ | ⟨-, hs, rfl⟩⟩ := leaveBlocks_held hr'
    · rw [hg]; exact hb i r' hr hon
    · rw [hg]; exact hb i r hr hbus
    · simp [Record.onBus, hs] at hon

theorem lists_sessionEnd (h : s.ListsSound) (p : Port) : (sessionEnd p s).ListsSound := by
  rw [sessionEnd_eq]
  exact h.map (decision_leaveProposal (leaveBlocks p s) p).exchange fun o h => lists_leaveProposal (lists_leaveBlocks h p) p

/-! ### The events -/

/-- A posted record joins its chain at the tail (R10, R23). -/
theorem lists_acceptPost (h : s.ListsAt o) {p : Port} {b : PostBody} {i : SlotIx} (hi : s.record i = none) :
    (acceptPost p b i s).ListsAt o := by
  obtain ⟨h, hb⟩ := h
  have record : ∀ j, (acceptPost p b i s).record j = if j = i then some (b.record p s.sweep) else s.record j :=
    fun j => record_putRecord s i j _
  have list : ∀ c, (acceptPost p b i s).chains[c].list =
      if c = chainIx p b.chain then s.chains[c].list ++ [i] else s.chains[c].list := fun c => by
    simp only [acceptPost, appendChain_chains, putRecord_chains]
    rw [modAt_get]
    split
    · next e => rw [e]
    · rfl
  have hin : (b.record p s.sweep).inChain := .inl rfl
  have self : (acceptPost p b i s).record i = some (b.record p s.sweep) := by rw [record, if_pos rfl]
  have ne : ∀ j r, s.record j = some r → j ≠ i := fun j r hr e => by rw [e, hi] at hr; cases hr
  have kept : ∀ j r, s.record j = some r → (acceptPost p b i s).record j = some r := fun j r hr => by
    rw [record, if_neg (ne j r hr)]; exact hr
  have held : ∀ j r, (acceptPost p b i s).record j = some r → (j = i ∧ r = b.record p s.sweep) ∨ s.record j = some r :=
    fun j r hr => by
      rw [record] at hr
      split at hr
      · next e => cases hr; exact .inl ⟨e, rfl⟩
      · exact .inr hr
  have notListed : ∀ c : ChainIx, i ∉ s.chains[c].list := fun c hmem => by
    obtain ⟨r, hr, -⟩ := h.chain_lists c i hmem
    exact ne i r hr rfl
  refine ⟨⟨fun c => ?_, fun c j hj => ?_, fun c j hj => ?_, fun j r hr hc => ?_, h.queue_once, fun q j hj => ?_,
    fun j r hr hd => ?_, fun j r hr ho => ?_⟩, fun j r hr hon => ?_⟩
  · rw [list]
    split
    · exact List.nodup_append'.mpr ⟨h.chain_once c, List.nodup_singleton i, fun j hj hj' => by
        obtain rfl := List.mem_singleton.mp hj'
        exact notListed c hj⟩
    · exact h.chain_once c
  · rw [list] at hj
    have old : j ∈ s.chains[c].list →
        ∃ r, (acceptPost p b i s).record j = some r ∧ r.inChain ∧ r.owner = some (chainPort c) ∧ r.home = c := fun hj => by
      obtain ⟨r, hr, hrest⟩ := h.chain_lists c j hj
      exact ⟨r, kept j r hr, hrest⟩
    split at hj
    · next hc =>
      obtain hj | hj := List.mem_append.mp hj
      · exact old hj
      · obtain rfl := List.mem_singleton.mp hj
        exact ⟨_, self, hin, by rw [hc, chainPort_chainIx]; rfl, hc.symm⟩
    · exact old hj
  · rw [list] at hj
    have old : j ∈ s.chains[c].list.tail → ∃ r, (acceptPost p b i s).record j = some r ∧ r.state = .queued := fun hj => by
      obtain ⟨r, hr, hq⟩ := h.behind_head c j hj
      exact ⟨r, kept j r hr, hq⟩
    split at hj
    · cases hl : s.chains[c].list with
      | nil => rw [hl] at hj; cases hj
      | cons a l =>
        rw [hl] at hj old
        obtain hj | hj := List.mem_append.mp hj
        · exact old hj
        · obtain rfl := List.mem_singleton.mp hj
          exact ⟨_, self, rfl⟩
    · exact old hj
  · rw [list]
    obtain ⟨rfl, rfl⟩ | hr := held j r hr
    · have hhome : (b.record p s.sweep).home = chainIx p b.chain := rfl
      rw [if_pos hhome]
      exact List.mem_append_right _ (List.mem_singleton_self _)
    · have hmem := h.chain_full j r hr hc
      split
      · exact List.mem_append_left _ hmem
      · exact hmem
  · obtain ⟨r, hr, hrest⟩ := h.queue_lists q j hj
    exact ⟨r, kept j r hr, hrest⟩
  · obtain ⟨rfl, rfl⟩ | hr := held j r hr
    · cases hd
    · exact h.queue_full j r hr hd
  · obtain ⟨rfl, rfl⟩ | hr := held j r hr
    · cases ho
    · exact h.owned j r hr ho
  · obtain ⟨rfl, rfl⟩ | hr := held j r hr
    · simp [Record.onBus, PostBody.record] at hon
    · have hg : (acceptPost p b i s).slots[j].gen = s.slots[j].gen := gen_putRecord s i j _
      rw [hg]
      exact hb j r hr hon

/-- An upset leaves what places a record (log 5). -/
theorem lists_upsetSlot (h : s.ListsAt o) (i : SlotIx) (stored : Record) : (upsetSlot i stored s).ListsAt o := by
  unfold upsetSlot
  split
  · next r hr =>
    refine lists_writes (i := i) (r' := r.upsetTo stored) h ⟨fun j => ?_, fun j => ?_, fun _ => rfl, fun _ => rfl⟩ hr rfl rfl
      (.inl rfl) id
    · simp only [State.record]
      rw [modAt_get]
      split <;> rfl
    · dsimp only
      rw [modAt_get]
      split
      · next e => rw [e]
      · rfl
  · exact h

theorem lists_raiseProposal (h : s.ListsAt o) (pr : Proposal) : (raiseProposal pr s).ListsAt o := by
  unfold raiseProposal
  refine foldl_keeps (I := fun s => s.ListsAt o) (fun s q h => ?_) _ h
  split
  · exact h.congr (same_raise _ _)
  · exact h

theorem lists_acceptPropose (h : s.ListsSound) (p : Port) (c : Change) : (acceptPropose p c s).ListsSound := by
  refine h.map ?_ fun o h => ?_
  · exact (store_raiseProposal _ _).exchange
  · refine lists_raiseProposal (h.congr ?_) _
    exact .ofFields rfl rfl rfl

theorem lists_decide (h : s.ListsSound) (pr : Proposal) (v : Verdict) : (decideProposal pr v s).ListsSound :=
  h.map (decision_decideProposal s pr v).exchange fun _ h => lists_decideProposal h pr v

theorem lists_consent (h : s.ListsSound) (pr : Proposal) : (decideByConsent pr s).ListsSound :=
  lists_offerBus (lists_decide h pr _)

/-- A store without records and lists is sound. -/
theorem listsSound_of_empty (hr : ∀ i : SlotIx, s.record i = none) (hl : ∀ c : ChainIx, s.chains[c].list = [])
    (hq : ∀ p : Port, s.reports[p].queue = []) : s.ListsSound where
  chain_once c := by rw [hl]; exact List.nodup_nil
  chain_lists c i hi := by rw [hl] at hi; cases hi
  behind_head c i hi := by rw [hl] at hi; cases hi
  chain_full i r h := by rw [hr] at h; cases h
  queue_once p := by rw [hq]; exact List.nodup_nil
  queue_lists p i hi := by rw [hq] at hi; cases hi
  queue_full i r h := by rw [hr] at h; cases h
  on_bus i r h := by rw [hr] at h; cases h
  owned i r h := by rw [hr] at h; cases h

theorem reset_record (i : SlotIx) : State.reset.record i = none := by
  simp [State.record, State.reset, Slot.powerOn]

theorem reset_chain (c : ChainIx) : State.reset.chains[c] = Chain.powerOn := by simp [State.reset]

theorem reset_report (p : Port) : State.reset.reports[p] = Report.powerOn := by simp [State.reset]

theorem lists_powerOn : (powerOn s).ListsSound :=
  listsSound_of_empty reset_record (fun c => congrArg Chain.list (reset_chain c)) fun p => congrArg Report.queue (reset_report p)

theorem modChain_list {c : ChainIx} {f : Chain → Chain} (hf : ∀ ch, (f ch).list = ch.list) (d : ChainIx) :
    (modChain c f s).chains[d].list = s.chains[d].list := by
  unfold modChain
  dsimp only
  rw [modAt_get]
  split
  · next e => rw [hf, e]
  · rfl

theorem lists_modChain (h : s.ListsSound) {c : ChainIx} {f : Chain → Chain} (hf : ∀ ch, (f ch).list = ch.list) :
    (modChain c f s).ListsSound :=
  h.congr ⟨fun _ => rfl, fun _ => rfl, modChain_list hf, fun _ => rfl⟩ rfl

theorem lists_enterLineFault (h : s.ListsSound) : (enterLineFault s).ListsSound := by
  have h' : ({ s with line := .fault, run := Config.lineFaultBits, releasedCount := 0 } : State).ListsSound :=
    h.congr (.ofFields rfl rfl rfl) rfl
  exact h'.congr (same_raiseAll .fault) rfl

theorem lists_event (h : Event s t) (hs : s.ListsSound) : t.ListsSound := by
  cases h with
  | nothing => exact hs
  | powerOn => exact lists_powerOn
  | sessionEnd => exact lists_offerBus (lists_sessionEnd hs _)
  | post _ _ hi => exact lists_offerBus (hs.map rfl fun o h => lists_acceptPost h hi)
  | @storeFault p l =>
    refine hs.map (StoreFrame.foldl (fun s i => store_damageSlot s i) l s).exchange fun o h => ?_
    have hall := foldl_keeps (I := fun s => s.ListsAt o) (fun s i h => lists_damageSlot h i) l h
    generalize l.foldl (fun s i => damageSlot i s) s = u at hall
    refine State.ListsAt.congr (hall.congr ?_) (same_raiseAll .fault)
    exact .ofFields rfl rfl rfl
  | @retire p i r k _ hr _ hst =>
    refine lists_offerBus (hs.map (store_retire s _ _ _).exchange fun o h => lists_retire h _ fun ho => ?_)
    have := hs.owned i r hr ho
    obtain e | e := hst <;> cases e.symm.trans this
  | cancelActive hr => exact hs.map (store_setCancelPending s _ _).exchange fun o h => lists_setCancelPending h hr
  | flush => exact hs.map (store_flushChain s _).exchange fun o h => lists_flushChain h _
  | chainSet => exact lists_modChain hs fun _ => rfl
  | chainPause => exact lists_modChain hs fun _ => rfl
  | chainGo => exact lists_offerBus (lists_modChain hs fun _ => rfl)
  | chainRetry hh hst =>
    refine lists_offerBus (hs.map rfl fun o h => ?_)
    exact lists_head hh h (writes_putRecord _ _) rfl rfl (.inl rfl) fun hb => by simp [Record.onBus, Record.retried] at hb
  | @fetch p i => exact hs.map (store_unlist s i).exchange fun o h => lists_leaves h (leaves_free _) mayLeave_none
  | @notify p f _ hf =>
    refine hs.congr (.ofReports rfl rfl fun q => ?_) rfl
    simp only [modReport]
    rw [modAt_get]
    split
    · next e => rw [hf, e]
    · rfl
  | propose => exact lists_acceptPropose hs _ _
  | proposeAlone => exact lists_consent (lists_acceptPropose hs _ _) _
  | consent => exact lists_consent hs _
  | decide => exact lists_decide hs _ _
  | turnover => exact lists_turnoverEvent (hs.congr same_clearMarks rfl) _
  | endExchange he hl => exact lists_endExchange hs he hl.origin _ _
  | lineFault => exact lists_enterLineFault hs
  | lineFaultEnd he => exact lists_endExchange (lists_enterLineFault hs) he rfl _ _
  | lineOk =>
    have hs' : ({ s with line := .ok, run := 0, releasedCount := 0 } : State).ListsSound := hs.congr (.ofFields rfl rfl rfl) rfl
    exact lists_offerBus hs'
  | upset i stored =>
    refine hs.map ?_ fun o h => lists_upsetSlot h i stored
    unfold upsetSlot
    split <;> rfl
  | pollPause => exact phaseTest_keeps (fun s h => h.congr (.ofFields rfl rfl rfl) rfl) (hs.congr (.ofFields rfl rfl rfl) rfl)
  | pollDelete => exact phaseTest_keeps (fun s h => h.congr (.ofFields rfl rfl rfl) rfl) (hs.congr (.ofFields rfl rfl rfl) rfl)
  | attach | pollCreate | pollChange | pollResume | pollAdopt | claim | renew | release | confirm | overrun =>
    exact hs.congr (.ofFields rfl rfl rfl) rfl

theorem lists_quiet (h : Quiet s t) (hs : s.ListsSound) : t.ListsSound := by
  have hb : t.busOrigin = s.busOrigin := by
    cases hx : s.exchange with
    | none => rw [busOrigin_of_idle hx, busOrigin_of_idle (h.idle hx)]
    | some e =>
      obtain ⟨e', he', hl⟩ := h.course e hx
      rw [State.busOrigin, State.busOrigin, hx, he']
      exact congrArg some hl.origin
  rw [listsSound_iff, hb]
  exact (listsSound_iff.mp hs).congr (.ofQuiet h)

theorem lists_popQueues (p : List Instr) (w : List WireEvent) (hs : s.ListsSound) :
    ({ s with pending := p, wires := w } : State).ListsSound := hs.congr (.ofFields rfl rfl rfl) rfl

/-- Settles O54: a slot is written in place, leaves its lists, or joins one, and the slot on the bus is that of the exchange. -/
theorem listsStaySound : Obligations.ListsStaySound := by
  unfold Obligations.ListsStaySound
  intro s t hs h
  exact step_keeps (fun s p w => lists_popQueues p w) (fun s t => lists_quiet) (fun s t => lists_event) hs h

end Sys2Proof.Machine

/-! PROOF. A DETACHED port holds nothing but ORPHANED slots (O55). `Served` is the part of the invariant about slots and reports, which
records' moves must keep; `Tied` the part about leases, poll entries and the proposal. -/

namespace Sys2Proof.Machine

variable {s t : State}

/-! ### The two parts of the invariant -/

/-- A DETACHED port has no slots but ORPHANED ones, no notes and no causes (R17, R141). -/
structure State.Served (s : State) : Prop where
  slots : ∀ (i : SlotIx) (r : Record) (p : Port), s.record i = some r → r.owner = some p → s.attached p = false → r.state = .orphaned
  reports : ∀ p : Port, s.attached p = false → s.reports[p] = Report.powerOn

/-- A DETACHED port has no reservation and no poll entry (R114, R126). -/
structure State.Tied (s : State) : Prop where
  resvs : ∀ (e : ResvIx) (a : Reservation), s.resvs[e] = some a → s.attached a.owner = true
  creators : ∀ (i : PollIx) (b : PollBody) (p : Port), s.polls[i].body = some b → b.creator = some p → s.attached p = true

/-- A DETACHED port has no place in a pending proposal (R151). -/
def State.Required (s : State) : Prop :=
  ∀ (pr : Proposal) (p : Port), s.proposal = some pr → pr.required.has p = true → s.attached p = true

theorem sessionsSound_iff : s.SessionsSound ↔ s.Served ∧ s.Tied ∧ s.Required :=
  ⟨fun h => ⟨⟨h.slots, h.reports⟩, ⟨h.resvs, h.creators⟩, h.required⟩,
    fun ⟨h, k, l⟩ => ⟨h.slots, h.reports, k.resvs, k.creators, l⟩⟩

theorem attached_of_ports (h : t.ports = s.ports) (p : Port) : t.attached p = s.attached p := by
  simp only [State.attached, h]

theorem State.Served.congr (h : s.Served) (ha : ∀ p, t.attached p = s.attached p) (hs : t.slots = s.slots)
    (hr : t.reports = s.reports) : t.Served where
  slots i r p hi ho hd := by
    rw [State.record, hs] at hi
    rw [ha] at hd
    exact h.slots i r p hi ho hd
  reports p hd := by
    rw [ha] at hd
    rw [hr]
    exact h.reports p hd

theorem State.Tied.congr (h : s.Tied) (ha : ∀ p, t.attached p = s.attached p) (hr : t.resvs = s.resvs) (hp : t.polls = s.polls) :
    t.Tied where
  resvs e a he := by rw [ha]; rw [hr] at he; exact h.resvs e a he
  creators i b p hb hc := by rw [ha]; rw [hp] at hb; exact h.creators i b p hb hc

theorem State.Required.congr (h : s.Required) (ha : ∀ p, t.attached p = s.attached p) (hp : t.proposal = s.proposal) :
    t.Required := by
  intro pr p hpr hreq
  rw [ha]
  exact h pr p (hp ▸ hpr) hreq

theorem required_none (h : s.proposal = none) : s.Required := fun pr p hpr => by rw [h] at hpr; cases hpr

/-! ### Records and reports -/

theorem State.Served.attached (h : s.Served) {i : SlotIx} {r : Record} {p : Port} (hr : s.record i = some r)
    (ho : r.owner = some p) (hs : r.state ≠ .orphaned) : s.attached p = true := by
  cases hd : s.attached p
  · exact absurd (h.slots i r p hr ho hd) hs
  · rfl

/-- Reports that change at attached ports alone. -/
theorem State.Served.ofReports (h : s.Served) (ha : ∀ p, t.attached p = s.attached p) (hs : t.slots = s.slots)
    (hr : ∀ p, s.attached p = false → t.reports[p] = s.reports[p]) : t.Served where
  slots i r p hi ho hd := by
    rw [State.record, hs] at hi
    rw [ha] at hd
    exact h.slots i r p hi ho hd
  reports p hd := by
    rw [ha] at hd
    rw [hr p hd]
    exact h.reports p hd

theorem mark_slots (d : Deferred) (p : Port) : (mark d p s).slots = s.slots := by unfold mark; split <;> rfl

theorem served_mark (h : s.Served) (d : Deferred) (p : Port) : (mark d p s).Served := by
  refine h.ofReports (store_mark s d p).attached (mark_slots d p) fun q hq => ?_
  rw [mark_report, if_neg]
  rintro ⟨rfl, ha⟩
  rw [hq] at ha
  cases ha

theorem served_raise (h : s.Served) (c : Cause) (p : Port) : (raise c p s).Served := by
  refine h.ofReports (store_raise s c p).attached (by unfold raise; split <;> rfl) fun q hq => ?_
  rw [raise_report, if_neg]
  rintro ⟨rfl, ha⟩
  rw [hq] at ha
  cases ha

theorem served_raiseAll (h : s.Served) (c : Cause) : (raiseAll c s).Served := by
  refine h.ofReports (fun _ => rfl) rfl fun q hq => ?_
  rw [raiseAll_report, if_neg (by simp [hq])]

theorem served_markAll (h : s.Served) (d : Deferred) : (markAll d s).Served := by
  refine h.ofReports (fun _ => rfl) rfl fun q hq => ?_
  rw [markAll_report, if_neg (by simp [hq])]

theorem served_clearMarks (h : s.Served) : (clearMarks s).Served := by
  refine h.ofReports (fun _ => rfl) rfl fun q hq => ?_
  simp only [clearMarks]
  rw [tab_get, h.reports q hq]
  rfl

/-- The marks set before an event are of attached ports alone. -/
def MarksOf (s : State) (m : Marks) : Prop := ∀ p : Port, s.attached p = false → m[p] = 0

theorem marksOf_marks (h : s.Served) : MarksOf s s.marks := by
  intro p hp
  rw [State.marks, tab_get, h.reports p hp]
  rfl

theorem served_restoreMarks (h : s.Served) {m : Marks} (hm : MarksOf s m) : (restoreMarks m s).Served := by
  refine h.ofReports (fun _ => rfl) rfl fun q hq => ?_
  simp only [restoreMarks]
  rw [tab_get, hm q hq, h.reports q hq]
  rfl

theorem served_pendMarks (h : s.Served) {m : Marks} (hm : MarksOf s m) : (pendMarks m s).Served := by
  refine h.ofReports (fun _ => rfl) rfl fun q hq => ?_
  simp only [pendMarks]
  rw [tab_get, if_neg (by simp [hq]), hm q hq, h.reports q hq]
  rfl

theorem served_unlist (h : s.Served) (i : SlotIx) : (unlist i s).Served := by
  refine h.ofReports (store_unlist s i).attached (unlist_slots s i) fun q hq => ?_
  rw [unlist_reports, tab_get, h.reports q hq]
  rfl

/-- A record written over one of the same owner that was not ORPHANED. -/
theorem served_putRecord (h : s.Served) {i : SlotIx} {r r' : Record} (hr : s.record i = some r) (hs : r.state ≠ .orphaned)
    (ho : r'.owner = r.owner) : (putRecord i r' s).Served where
  slots j q p hj hq hd := by
    rw [record_putRecord] at hj
    split at hj
    · cases hj
      have := h.attached hr (ho ▸ hq) hs
      rw [show s.attached p = false from hd] at this
      cases this
    · exact h.slots j q p hj hq hd
  reports := h.reports

theorem served_freeSlot (h : s.Served) (i : SlotIx) : (freeSlot i s).Served where
  slots j q p hj hq hd := by
    rw [record_freeSlot] at hj
    split at hj
    · cases hj
    · exact h.slots j q p hj hq hd
  reports := h.reports

theorem served_enqueueNote (h : s.Served) {p : Port} (hp : s.attached p = true) (i : SlotIx) : (enqueueNote p i s).Served := by
  have h' : ({ s with reports := modAt s.reports p fun q => { q with queue := q.queue ++ [i] } } : State).Served := by
    refine h.ofReports (fun _ => rfl) rfl fun q hq => ?_
    dsimp only
    rw [modAt_get, if_neg]
    rintro rfl
    rw [hq] at hp
    cases hp
  exact served_mark h' .report p

section
variable (h : s.Served) {i : SlotIx} {r r' : Record} (hr : s.record i = some r) (hs : r.state ≠ .orphaned)
include h hr hs

theorem served_retire (ho : r'.owner = r.owner) (k : EndKind) : (retire i r' k s).Served := by
  have hr' : (unlist i s).record i = some r := by rw [record_unlist, hr]
  have hput : (putRecord i (r'.retired k s.sweep) (unlist i s)).Served := served_putRecord (served_unlist h i) hr' hs ho
  unfold retire
  dsimp only
  rw [unlist_sweep]
  split
  · next p hp =>
    refine served_enqueueNote hput ?_ i
    have hu := (store_unlist s i).attached p
    exact hu.trans (h.attached hr (ho ▸ hp) hs)
  · exact hput

theorem served_haltHead (ho : r'.owner = r.owner) (c : ChainIx) (why : HaltReason) : (haltHead c i r' why s).Served := by
  refine served_mark (served_putRecord h hr hs ?_) .halt _
  exact ho

end

theorem served_retireAll (h : s.Served) (k : EndKind) {l : List SlotIx}
    (hl : ∀ i ∈ l, ∀ r, s.record i = some r → r.state ≠ .orphaned) : (retireAll k l s).Served := by
  induction l generalizing s with
  | nil => exact h
  | cons i l ih =>
    change (retireAll k l (retireSlot i k s)).Served
    cases hr : s.record i with
    | none =>
      rw [retireSlot_free s k hr]
      exact ih h fun j hj => hl j (.tail _ hj)
    | some r =>
      rw [retireSlot_held s k hr]
      refine ih (served_retire h hr (hl i (.head _) r hr) rfl k) fun j hj q hq => ?_
      rw [record_retire] at hq
      split at hq
      · cases hq; simp
      · exact hl j (.tail _ hj) q hq

theorem served_damageSlot (h : s.Served) {i : SlotIx} (hi : ∀ r, s.record i = some r → r.state ≠ .orphaned) :
    (damageSlot i s).Served := by
  unfold damageSlot
  split
  · next r hr => exact served_putRecord (served_unlist h i) (by rw [record_unlist, hr]) (hi r hr) rfl
  · exact h

theorem served_damageAll (h : s.Served) {l : List SlotIx} (hl : ∀ i ∈ l, ∀ r, s.record i = some r → r.state ≠ .orphaned) :
    (l.foldl (fun s i => damageSlot i s) s).Served := by
  induction l generalizing s with
  | nil => exact h
  | cons i l ih =>
    refine ih (served_damageSlot h (hl i (.head _))) fun j hj q hq => ?_
    change (damageSlot i s).record j = some q at hq
    cases hr : s.record i with
    | none =>
      rw [show damageSlot i s = s by unfold damageSlot; rw [hr]] at hq
      exact hl j (.tail _ hj) q hq
    | some r =>
      rw [(leaves_damage hr).record] at hq
      split at hq
      · cases hq; simp
      · exact hl j (.tail _ hj) q hq

theorem inChain_ne_orphaned {r : Record} (h : r.inChain) : r.state ≠ .orphaned := by
  obtain e | e | e := h <;> simp [e]

/-- A slot that a request reached is not ORPHANED (R6, R21, R129). -/
theorem reaches_ne_orphaned (h : s.StoreSound) {p : Port} {i : SlotIx} (hp : s.reaches p i) :
    ∀ r, s.record i = some r → r.state ≠ .orphaned := by
  intro r hr
  obtain ⟨r', hr', -, hs⟩ | hq | ⟨c, -, hc⟩ := hp
  · cases hr.symm.trans hr'
    exact hs
  · obtain ⟨r', hr', hd, -⟩ := h.queue_lists p i hq
    cases hr.symm.trans hr'
    simp [hd]
  · exact inChain_ne_orphaned (h.member_owner hc hr).1

theorem chain_ne_orphaned (h : s.StoreSound) {c : ChainIx} {i : SlotIx} (hi : i ∈ s.chains[c].list) :
    ∀ r, s.record i = some r → r.state ≠ .orphaned := fun _ hr => inChain_ne_orphaned (h.member_owner hi hr).1

/-! ### Tries -/

section
variable (h : s.Served) (hl : s.StoreSound)
include h hl

theorem served_tryStart (c : ChainIx) : (tryStart c s).Served := by
  unfold tryStart
  split
  · exact h.congr (fun _ => rfl) rfl rfl
  · next i r hh =>
    have hr := (head_slot s hh).2
    have hs := inChain_ne_orphaned (hl.head_chain hh).1
    split
    · have hd : (damageSlot i s).Served := served_damageSlot h fun q hq => by cases hr.symm.trans hq; exact hs
      refine served_raiseAll (s := { endGrant (damageSlot i s) with sched := .faulted }) ?_ .fault
      exact hd.congr (fun _ => rfl) rfl rfl
    · split
      · exact (served_haltHead h hr hs rfl c .fenced).congr (fun _ => rfl) rfl rfl
      · have hp : (putRecord i { r with state := .active } s).Served := served_putRecord h hr hs rfl
        exact hp.congr (fun _ => rfl) rfl rfl

theorem served_flushChain (c : ChainIx) : (flushChain c s).2.2.Served := by
  unfold flushChain
  split
  · next i r hh =>
    have hr := (head_slot s hh).2
    have hs := inChain_ne_orphaned (hl.head_chain hh).1
    split
    · have hset : (setCancelPending i r s).Served := by
        unfold setCancelPending
        split
        · exact h
        · exact served_putRecord h hr hs rfl
      refine served_retireAll hset _ fun j hj q hq => ?_
      have hj' := List.mem_of_mem_tail hj
      unfold setCancelPending at hq
      split at hq
      · exact chain_ne_orphaned hl hj' q hq
      · rw [record_putRecord] at hq
        split at hq
        · cases hq; exact hs
        · exact chain_ne_orphaned hl hj' q hq
    · exact served_retireAll h _ fun j hj => chain_ne_orphaned hl hj
  · exact h

theorem served_skipGroup (r : Record) (out : Outcome) : (skipGroup r out s).Served := by
  unfold skipGroup
  split
  · exact served_retireAll h _ fun i hi => chain_ne_orphaned hl (groupRest_subset _ hi)
  · exact h

theorem served_burstContinue (c : ChainIx) : (burstContinue c s).Served := by
  unfold burstContinue
  split
  · split
    · split
      · refine served_tryStart ?_ ?_ c
        · exact h.congr (fun _ => rfl) rfl rfl
        · exact hl.congr (.ofFields rfl rfl rfl)
      · exact h.congr (fun _ => rfl) rfl rfl
    · exact h
  · exact h

end

theorem served_tryResult {i : SlotIx} {g : Byte} {r : Record} (h : s.Served) (hl : s.ListsAt (some (.record i g)))
    (hr : s.record i = some r) (hs : r.state = .active) (k : TryResult i r s t) : t.Served := by
  have hs' : r.state ≠ .orphaned := by simp [hs]
  have hown : r.owner ≠ none := fun ho => by
    have := hl.1.owned i r hr ho
    rw [hs] at this
    cases this
  have requeue : ∀ r' : Record, r'.owner = r.owner → (requeueHead i r' s).Served := fun r' ho => by
    have hp : (putRecord i { r' with state := .queued } s).Served := served_putRecord h hr hs' ho
    exact hp.congr (fun _ => rfl) rfl rfl
  have halt : ∀ (r' : Record) (why : HaltReason), r'.owner = r.owner → (haltAfterTry i r' why s).Served := fun r' why ho =>
    (served_haltHead h hr hs' ho r'.home why).congr (fun _ => rfl) rfl rfl
  cases k with
  | @completes r' out res he =>
    obtain ⟨e, rfl⟩ := he
    have ho : ((r.afterTry e).completed res).owner = r.owner := (afterTry_place r e).1
    have hleft := lists_leaveCompleted hl (r := (r.afterTry e).completed res) out (ho ▸ hown)
    have hserved : (leaveCompleted i ((r.afterTry e).completed res) out s).Served := by
      unfold leaveCompleted
      split
      · exact served_freeSlot (served_unlist h i) i
      · exact served_retire h hr hs' ho _
    exact served_burstContinue (served_skipGroup hserved hleft.1 _ _) (lists_skipGroup hleft _ _).1 _
  | cancelled he =>
    obtain ⟨e, rfl⟩ := he
    exact (served_retire h hr hs' (afterTry_place r e).1 _).congr (fun _ => rfl) rfl rfl
  | requeued he =>
    obtain ⟨e, rfl⟩ := he
    exact requeue _ (afterTry_place r e).1
  | halted he =>
    obtain ⟨e, rfl⟩ := he
    exact halt _ _ (afterTry_place r e).1
  | spent he =>
    obtain ⟨e, rfl⟩ := he
    have ho := (afterTry_place r e).1
    unfold spendBudget
    split
    · exact requeue _ ho
    · dsimp only
      split
      · exact halt _ _ ho
      · exact requeue _ ho

theorem served_recordOutcome {e : Exchange} {i : SlotIx} {g : Byte} (h : s.Served) (hl : s.ListsAt (some (.record i g)))
    (out : Outcome) (words : List Word) : (recordOutcome e i g out words s).Served := by
  generalize ht : recordOutcome e i g out words s = t
  cases ht ▸ recordOutcome_result e i g out words s with
  | nothing => exact h
  | freed => exact served_freeSlot h i
  | tried hr hs _ hres => exact served_tryResult h hl hr hs hres
  | writes => exact h.congr (fun _ => rfl) rfl rfl

/-! ### The whole invariant through the compound operations -/

/-- The lists are sound and so are the sessions: what O55 asks for, with what it rests on. -/
def State.SessionsHeld (s : State) : Prop := s.ListsSound ∧ s.SessionsSound

theorem State.SessionsSound.served (h : s.SessionsSound) : s.Served := (sessionsSound_iff.mp h).1

/-- The invariant after a change of slots and reports that keeps everything the other parts read. -/
theorem State.SessionsSound.move (h : s.SessionsSound) (ha : ∀ p, t.attached p = s.attached p) (hr : t.resvs = s.resvs)
    (hp : t.polls = s.polls) (hpr : t.proposal = s.proposal) (hs : t.Served) : t.SessionsSound := by
  obtain ⟨-, htied, hreq⟩ := sessionsSound_iff.mp h
  exact sessionsSound_iff.mpr ⟨hs, htied.congr ha hr hp, hreq.congr ha hpr⟩

theorem State.SessionsSound.congr (h : s.SessionsSound) (hports : t.ports = s.ports) (hs : t.slots = s.slots)
    (hrep : t.reports = s.reports) (hr : t.resvs = s.resvs) (hp : t.polls = s.polls) (hpr : t.proposal = s.proposal) :
    t.SessionsSound :=
  h.move (attached_of_ports hports) hr hp hpr (h.served.congr (attached_of_ports hports) hs hrep)

theorem State.SessionsSound.store (h : s.SessionsSound) (k : StoreFrame s t) (hs : t.Served) : t.SessionsSound :=
  h.move k.attached k.resvs k.polls k.proposal hs

theorem State.SessionsSound.tries (h : s.SessionsSound) (k : TryFrame s t) (hs : t.Served) : t.SessionsSound :=
  h.move (fun p => by rw [k.frame]; rfl) (by rw [k.frame]) k.polls (by rw [k.frame]) hs

/-- Poll entries whose creators are attached. -/
theorem State.SessionsSound.ofPolls (h : s.SessionsSound) {ps : Vector PollEntry 48} {l : List PollIx}
    (hc : ∀ (i : PollIx) (b : PollBody) (p : Port), ps[i].body = some b → b.creator = some p → s.attached p = true) :
    ({ s with polls := ps, pollPending := l } : State).SessionsSound :=
  ⟨h.slots, h.reports, h.resvs, hc, h.required⟩

theorem creators_modPoll (h : s.SessionsSound) {i : PollIx} {f : PollEntry → PollEntry}
    (hf : ∀ (b : PollBody) (p : Port), (f s.polls[i]).body = some b → b.creator = some p → s.attached p = true) :
    ∀ (j : PollIx) (b : PollBody) (p : Port), (modAt s.polls i f)[j].body = some b → b.creator = some p → s.attached p = true := by
  intro j b p hb hc
  rw [modAt_get] at hb
  split at hb
  · exact hf b p hb hc
  · exact h.creators j b p hb hc

theorem sessions_phaseTest (h : s.SessionsSound) : (phaseTest s).SessionsSound :=
  phaseTest_keeps (fun _ h => h.congr rfl rfl rfl rfl rfl rfl) h

theorem sessions_startPoll (h : s.SessionsSound) : (startPoll s).SessionsSound := by
  unfold startPoll
  split
  · exact h
  · split <;> exact h.congr rfl rfl rfl rfl rfl rfl

theorem held_offerBus (h : s.SessionsHeld) : (offerBus s).SessionsHeld := by
  refine ⟨lists_offerBus h.1, (offerBus_keeps (I := State.SessionsHeld) ?_ ?_ ?_ ?_ h).2⟩
  · exact fun s ⟨hl, h⟩ => ⟨hl.congr (.ofFields rfl rfl rfl) rfl, h.congr rfl rfl rfl rfl rfl rfl⟩
  · exact fun s ⟨hl, h⟩ => ⟨hl.congr (.ofFields rfl rfl rfl) rfl, h.congr rfl rfl rfl rfl rfl rfl⟩
  · exact fun s hm _ ⟨hl, h⟩ => ⟨lists_startPoll hl (mayOffer_idle hm), sessions_startPoll h⟩
  · refine fun s c hm _ ⟨hl, h⟩ => ⟨lists_grant_tryStart hl (mayOffer_idle hm) c, ?_⟩
    have hg : (grantTo c s).SessionsSound := h.congr (grantTo_ports s c) (grantTo_slots s c) (grantTo_reports s c)
      (grantTo_resvs s c) (grantTo_polls s c) (grantTo_proposal s c)
    exact hg.tries (try_tryStart _ c)
      (served_tryStart hg.served ((listsSound_iff.mp hl).congr (same_grantTo c)).1 c)

theorem served_disposeDamaged (h : s.Served) (i : SlotIx) : (disposeDamaged s i).Served := by
  unfold disposeDamaged
  split
  · exact h
  · next r hr =>
    split
    · next hs =>
      split
      · split
        · exact served_retire h hr (by simp [hs]) rfl _
        · exact served_freeSlot h i
      · exact served_freeSlot h i
    · exact h

theorem served_applyChange (h : s.Served) (c : Change) : (applyChange c s).Served := by
  cases c
  case restart =>
    rw [applyChange_restart]
    have hall := foldl_keeps (I := State.Served) (fun s i h => served_disposeDamaged h i) (List.finRange 128) h
    generalize (List.finRange 128).foldl disposeDamaged s = u at hall
    exact hall.congr (fun _ => rfl) rfl rfl
  all_goals exact h.congr (fun _ => rfl) rfl rfl

theorem served_decideProposal (h : s.Served) (pr : Proposal) (v : Verdict) : (decideProposal pr v s).Served := by
  have happlied : (if v = .adopted then applyChange pr.change s else s).Served := by
    split
    · exact served_applyChange h _
    · exact h
  have hrecorded : ∀ u : State, u.Served → ∀ d, ({ u with decision := d, proposal := none } : State).Served :=
    fun u hu d => hu.congr (fun _ => rfl) rfl rfl
  exact served_raiseAll (hrecorded _ happlied _) .decided

theorem decision_attached {u : State} (h : DecisionFrame s u) (p : Port) : u.attached p = s.attached p := attached_of_ports h.ports p

theorem State.Tied.decision (h : s.Tied) (k : DecisionFrame s t) : t.Tied := h.congr (decision_attached k) k.resvs k.polls

/-- A decision leaves no proposal for a port to be required by (R145). -/
theorem sessions_decide (hs : s.Served) (ht : s.Tied) (pr : Proposal) (v : Verdict) : (decideProposal pr v s).SessionsSound :=
  sessionsSound_iff.mpr
    ⟨served_decideProposal hs pr v, ht.decision (decision_decideProposal s pr v), required_none (decideProposal_proposal s pr v)⟩

theorem held_consent (h : s.SessionsHeld) (pr : Proposal) : (decideByConsent pr s).SessionsHeld := by
  obtain ⟨hs, ht, -⟩ := sessionsSound_iff.mp h.2
  exact held_offerBus ⟨lists_decide h.1 pr _, sessions_decide hs ht pr _⟩

theorem sessions_lowerWindow (h : s.SessionsSound) : (lowerWindow s).SessionsSound := by
  obtain ⟨hs, ht, hreq⟩ := sessionsSound_iff.mp h
  unfold lowerWindow
  split
  · exact h
  · next pr hpr =>
    dsimp only
    split
    · exact sessions_decide hs ht _ _
    · refine sessionsSound_iff.mpr ⟨hs.congr (fun _ => rfl) rfl rfl, ht.congr (fun _ => rfl) rfl rfl, fun pr' p hpr' hp => ?_⟩
      cases hpr'
      exact hreq pr p hpr hp

theorem sessions_setResv (h : s.SessionsSound) {e : ResvIx} {x : Option Reservation}
    (hx : ∀ a, x = some a → s.attached a.owner = true) : (setResv e x s).SessionsSound := by
  refine ⟨h.slots, h.reports, fun f a ha => ?_, h.creators, h.required⟩
  rw [setResv_get] at ha
  split at ha
  · exact hx a ha
  · exact h.resvs f a ha

theorem sessions_lowerLease (h : s.SessionsSound) (e : ResvIx) : (lowerLease s e).SessionsSound := by
  unfold lowerLease
  split
  · exact h
  · next a ha =>
    split
    · have hfree : (setResv e none s).SessionsSound := sessions_setResv h fun _ h => by cases h
      exact hfree.store (store_raise _ _ _) (served_raise hfree.served _ _)
    · exact sessions_setResv h fun b hb => by cases hb; exact h.resvs e a ha

theorem sessions_pollTurnover (h : s.SessionsSound) : (pollTurnover s).SessionsSound := by
  obtain ⟨hs, ht, hreq⟩ := sessionsSound_iff.mp h
  have ha := attached_of_ports (pollTurnover_ports s)
  refine sessionsSound_iff.mpr ⟨hs.congr ha (pollTurnover_slots s) (pollTurnover_reports s), ⟨fun e a he => ?_, fun i b p hb hc => ?_⟩,
    hreq.congr ha (pollTurnover_proposal s)⟩
  · rw [ha]
    rw [pollTurnover_resvs] at he
    exact ht.resvs e a he
  · rw [ha]
    rw [pollTurnover_poll, Option.map_eq_some_iff] at hb
    obtain ⟨b', hb', rfl⟩ := hb
    exact ht.creators i b' p hb' hc

theorem sessions_checkDeadline (h : s.SessionsSound) (hl : s.ListsSound) (c : ChainIx) : (checkDeadline s c).SessionsSound := by
  refine h.store (store_checkDeadline s c) ?_
  unfold checkDeadline
  split
  · next i r hh =>
    split
    · have hin := ((listsSound_iff.mp hl).1.head_chain hh).1
      exact served_haltHead h.served (head_slot s hh).2 (inChain_ne_orphaned hin) rfl c _
    · exact h.served
  · exact h.served

theorem held_turnoverEvent (h : s.SessionsHeld) {m : Marks} (hm : MarksOf s m) : (turnoverEvent m s).SessionsHeld := by
  have key : (turnoverReactions m (advanceSweep s)).SessionsHeld ∧ MarksOf (turnoverReactions m (advanceSweep s)) m := by
    refine turnoverReactions_keeps (I := fun s => s.SessionsHeld ∧ MarksOf s m) ?_ ?_ ?_ ?_ ?_ ?_ ⟨h, hm⟩
    · exact fun s ⟨⟨hl, h⟩, hm⟩ => ⟨⟨hl.congr (.ofFields rfl rfl rfl) rfl, h.congr rfl rfl rfl rfl rfl rfl⟩, hm⟩
    · exact fun s ⟨⟨hl, h⟩, hm⟩ =>
        ⟨⟨hl.congr (same_pendMarks m) rfl, h.store (store_pendMarks s m) (served_pendMarks h.served hm)⟩, hm⟩
    · refine fun s ⟨⟨hl, h⟩, hm⟩ => ⟨⟨?_, sessions_pollTurnover h⟩, fun p hp => ?_⟩
      · exact hl.congr (.ofFields (pollTurnover_slots s) (pollTurnover_chains s) (pollTurnover_reports s)) (pollTurnover_exchange s)
      · rw [attached_of_ports (pollTurnover_ports s)] at hp
        exact hm p hp
    · refine fun s c ⟨⟨hl, h⟩, hm⟩ => ⟨⟨?_, sessions_checkDeadline h hl c⟩, fun p hp => ?_⟩
      · exact hl.map (store_checkDeadline s c).exchange fun o h => lists_checkDeadline h c
      · rw [(store_checkDeadline s c).attached] at hp
        exact hm p hp
    · refine fun s e ⟨⟨hl, h⟩, hm⟩ => ⟨⟨hl.congr (same_lowerLease e) (lowerLease_exchange e), sessions_lowerLease h e⟩, fun p hp => ?_⟩
      rw [attached_of_ports (host_lowerLease s e).ports] at hp
      exact hm p hp
    · refine fun s ⟨⟨hl, h⟩, hm⟩ => ⟨⟨?_, sessions_lowerWindow h⟩, fun p hp => ?_⟩
      · exact hl.map (decision_lowerWindow s).exchange fun o h => lists_lowerWindow h
      · rw [decision_attached (decision_lowerWindow s)] at hp
        exact hm p hp
  exact held_offerBus key.1

theorem sessions_pollOutcome (h : s.SessionsSound) (i : PollIx) (edit : Byte) (o : Outcome) (words : List Word) :
    (pollOutcome i edit o words s).SessionsSound := by
  unfold pollOutcome
  split
  · exact h
  · next b hb =>
    split
    · exact h
    · split
      · split
        · exact h
        · exact h.congr rfl rfl rfl rfl rfl rfl
      · dsimp only
        have hput : ({ s with polls := modAt s.polls i fun en =>
            { en with body := some { b with snap := b.snap.after b o words } } } : State).SessionsSound :=
          h.ofPolls (creators_modPoll h fun c p hc hp => by cases hc; exact h.creators i b p hb hp)
        split
        · split
          · exact hput.store (store_mark _ _ _) (served_mark hput.served _ _)
          · exact hput
        · exact hput

theorem sessions_handOff {e : Exchange} (h : s.SessionsSound) (hl : s.ListsAt (some e.origin)) (o : Outcome) (words : List Word) :
    (handOff e o words s).SessionsSound := by
  unfold handOff
  split
  · next i g he => exact h.tries (try_recordOutcome he o words s) (served_recordOutcome h.served (he ▸ hl) o words)
  · exact sessions_pollOutcome h _ _ o words

theorem sessions_updateTarget (h : s.SessionsSound) (e : Exchange) (o : Outcome) : (updateTarget e o s).SessionsSound := by
  unfold updateTarget
  split
  · exact h
  · split
    · exact h
    · dsimp only
      have hput : ∀ ts, ({ s with targets := ts } : State).SessionsSound := fun ts => h.congr rfl rfl rfl rfl rfl rfl
      split
      · exact (hput _).store rfl (served_markAll (hput _).served _)
      · exact hput _

theorem held_endExchange {e e' : Exchange} (h : s.SessionsHeld) (hx : s.exchange = some e) (he : e'.origin = e.origin) (o : Outcome)
    (words : List Word) : (endExchange e' o words s).SessionsHeld := by
  refine ⟨lists_endExchange h.1 hx he o words, ?_⟩
  have hb : s.busOrigin = some e'.origin := by rw [State.busOrigin, hx, he]; rfl
  have hl' := hb ▸ listsSound_iff.mp h.1
  have hclear : ({ clearMarks s with exchange := none } : State).ListsAt (some e'.origin) :=
    hl'.congr (same_clearMarks.trans (.ofFields rfl rfl rfl))
  have hsclear : ({ clearMarks s with exchange := none } : State).SessionsSound :=
    h.2.move (fun _ => rfl) rfl rfl rfl ((served_clearMarks h.2.served).congr (fun _ => rfl) rfl rfl)
  have hlist := hclear.congr (same_updateTarget e' o)
  have hports : (handOff e' o words (updateTarget e' o { clearMarks s with exchange := none })).ports = s.ports :=
    ((work_updateTarget _ e' o).trans (work_handOff _ e' o words)).ports
  unfold endExchange
  refine (afterExchange_keeps (I := fun t => t.SessionsHeld ∧ MarksOf t s.marks) (J := State.SessionsHeld) ?_ ?_ ?_ ?_).2
  · refine fun ⟨⟨hl, h⟩, hm⟩ => ⟨⟨lists_drained hl, ?_⟩, fun p hp => ?_⟩
    · unfold drained
      split
      · exact h.congr rfl rfl rfl rfl rfl rfl
      · exact h
    · rw [attached_of_ports (work_drained _).ports] at hp
      exact hm p hp
  · exact fun s _ ⟨h, hm⟩ => held_turnoverEvent h hm
  · exact fun s ⟨⟨hl, h⟩, hm⟩ => held_offerBus
      ⟨hl.congr (same_restoreMarks _) rfl, h.store (store_restoreMarks s _) (served_restoreMarks h.served hm)⟩
  · refine ⟨⟨lists_handOff hlist (updateTarget_exchange e' o) o words, ?_⟩, fun p hp => ?_⟩
    · exact sessions_handOff (sessions_updateTarget hsclear e' o) hlist o words
    · rw [attached_of_ports hports] at hp
      exact marksOf_marks h.2.served p hp

/-! ### Session ends -/

theorem attached_leaveBlocks (p q : Port) : (leaveBlocks p s).attached q = (s.attached q && decide (q ≠ p)) := by
  simp only [State.attached, leaveBlocks]
  rw [modAt_get]
  split
  · next h => simp [h]
  · next h => simp [h]

/-- What is left at a session end is of ports that stay attached (R17, R114, R126, R141). -/
theorem leaveBlocks_served (h : s.Served) (p : Port) : (leaveBlocks p s).Served where
  slots i r' q hr' ho hd := by
    rw [attached_leaveBlocks] at hd
    obtain ⟨r, hr, -, ⟨hne, rfl⟩ | ⟨-, -, rfl⟩ | ⟨-, -, rfl⟩⟩ := leaveBlocks_held hr'
    · refine h.slots i r' q hr ho ?_
      have : q ≠ p := fun e => hne (e ▸ ho)
      simpa [this] using hd
    · rfl
    · cases ho
  reports q hd := by
    rw [attached_leaveBlocks] at hd
    rw [report_leaveBlocks]
    split
    · rfl
    · next hq => exact h.reports q (by simpa [hq] using hd)

theorem leaveBlocks_tied (h : s.Tied) (p : Port) : (leaveBlocks p s).Tied where
  resvs e a he := by
    simp only [leaveBlocks] at he
    rw [tab_get, Option.filter_eq_some_iff] at he
    rw [attached_leaveBlocks, h.resvs e a he.1]
    simpa using he.2
  creators i b q hb hc := by
    simp only [leaveBlocks] at hb
    rw [tab_get, PollEntry.sessionEnd, Option.map_eq_some_iff] at hb
    obtain ⟨b', hb', rfl⟩ := hb
    dsimp only at hc
    split at hc
    · cases hc
    · next hne =>
      rw [attached_leaveBlocks, h.creators i b' q hb' hc]
      have : q ≠ p := fun e => hne (e ▸ hc)
      simpa using this

theorem sessions_sessionEnd (h : s.SessionsSound) (p : Port) : (sessionEnd p s).SessionsSound := by
  obtain ⟨hs, ht, hreq⟩ := sessionsSound_iff.mp h
  have hs' := leaveBlocks_served hs p
  have ht' := leaveBlocks_tied ht p
  have other : ∀ (pr : Proposal) (q : Port), s.proposal = some pr → pr.required.has q = true → q ≠ p →
      (leaveBlocks p s).attached q = true := fun pr q hpr hq hne => by
    rw [attached_leaveBlocks, hreq pr q hpr hq]
    simpa using hne
  rw [sessionEnd_eq]
  unfold leaveProposal
  split
  · next hn => exact sessionsSound_iff.mpr ⟨hs', ht', required_none hn⟩
  · next pr hpr =>
    have hpr : s.proposal = some pr := hpr
    split
    · next hp =>
      refine sessionsSound_iff.mpr ⟨hs', ht', fun pr' q hpr' hq => ?_⟩
      cases hpr.symm.trans hpr'
      refine other pr q hpr hq ?_
      rintro rfl
      rw [hq] at hp
      cases hp
    · dsimp only
      split_ifs
      · exact sessions_decide hs' ht' _ _
      · exact sessions_decide hs' ht' _ _
      · refine sessionsSound_iff.mpr ⟨hs'.congr (fun _ => rfl) rfl rfl, ht'.congr (fun _ => rfl) rfl rfl, fun pr' q hpr' hq => ?_⟩
        cases hpr'
        dsimp only at hq
        rw [has_drop, Bool.and_eq_true, decide_eq_true_eq] at hq
        exact other pr q hpr hq.1 hq.2

/-! ### The events -/

theorem served_raiseProposal (h : s.Served) (pr : Proposal) : (raiseProposal pr s).Served := by
  unfold raiseProposal
  refine foldl_keeps (I := State.Served) (fun s q h => ?_) _ h
  split
  · exact served_raise h _ _
  · exact h

theorem sessions_acceptPropose (h : s.SessionsSound) (p : Port) (c : Change) : (acceptPropose p c s).SessionsSound := by
  obtain ⟨hs, ht, -⟩ := sessionsSound_iff.mp h
  have hput : ({ s with lastNumber := (newProposal p c s).number, proposal := some (newProposal p c s) } : State).SessionsSound := by
    refine sessionsSound_iff.mpr ⟨hs.congr (fun _ => rfl) rfl rfl, ht.congr (fun _ => rfl) rfl rfl, fun pr q hpr hq => ?_⟩
    cases hpr
    exact has_attachedSet.symm.trans hq
  exact hput.store (store_raiseProposal _ _) (served_raiseProposal hput.served _)

/-- A session that begins adds an attached port (R170). -/
theorem sessions_attach (h : s.SessionsSound) (p : Port) : (modPort p PortIf.beginSession s).SessionsSound := by
  have ha : ∀ q, (modPort p PortIf.beginSession s).attached q = (s.attached q || decide (q = p)) := fun q => by
    simp only [State.attached, modPort]
    rw [modAt_get]
    split
    · next e => simp [e, PortIf.beginSession]
    · next e => simp [e]
  have more : ∀ q, s.attached q = true → (modPort p PortIf.beginSession s).attached q = true := fun q hq => by rw [ha, hq]; rfl
  have fewer : ∀ q, (modPort p PortIf.beginSession s).attached q = false → s.attached q = false := fun q hq => by
    rw [ha, Bool.or_eq_false_iff] at hq
    exact hq.1
  exact ⟨fun i r q hr ho hd => h.slots i r q hr ho (fewer q hd), fun q hd => h.reports q (fewer q hd),
    fun e a he => more _ (h.resvs e a he), fun i b q hb hc => more _ (h.creators i b q hb hc),
    fun pr q hpr hq => more _ (h.required pr q hpr hq)⟩

theorem sessions_powerOn : (powerOn s).SessionsSound where
  slots i r p hr := by rw [show (powerOn s).record i = none from reset_record i] at hr; cases hr
  reports p _ := reset_report p
  resvs e a he := by
    change State.reset.resvs[e] = some a at he
    simp [State.reset] at he
  creators i b p hb := by
    change State.reset.polls[i].body = some b at hb
    simp [State.reset] at hb
  required pr p hpr := by cases hpr

theorem sessions_acceptPost (h : s.SessionsSound) {p : Port} (ha : s.attached p = true) (b : PostBody) (i : SlotIx) :
    (acceptPost p b i s).SessionsSound := by
  refine h.store (t := acceptPost p b i s) rfl ⟨fun j r q hr ho hd => ?_, h.reports⟩
  rw [show (acceptPost p b i s).record j = if j = i then some (b.record p s.sweep) else s.record j from record_putRecord s i j _] at hr
  split at hr
  · cases hr
    cases ho
    rw [show s.attached p = false from hd] at ha
    cases ha
  · exact h.slots j r q hr ho hd

theorem sessions_upsetSlot (h : s.SessionsSound) (i : SlotIx) (stored : Record) : (upsetSlot i stored s).SessionsSound := by
  unfold upsetSlot
  split
  · next r hr =>
    refine h.store (t := { s with slots := _ }) rfl ⟨fun j q p hq ho hd => ?_, h.reports⟩
    simp only [State.record] at hq
    rw [modAt_get] at hq
    split at hq
    · cases hq; exact h.slots i r p hr ho hd
    · exact h.slots j q p hq ho hd
  · exact h

theorem held_event (h : Event s t) (hs : s.SessionsHeld) : t.SessionsHeld := by
  obtain ⟨hl, hss⟩ := hs
  have hlt := lists_event h hl
  have hstore := (listsSound_iff.mp hl).1
  refine ⟨hlt, ?_⟩
  cases h with
  | nothing => exact hss
  | powerOn => exact sessions_powerOn
  | attach => exact sessions_attach hss _
  | sessionEnd => exact (held_offerBus ⟨lists_sessionEnd hl _, sessions_sessionEnd hss _⟩).2
  | @post p _ b i ha _ hi =>
    have hpost : (acceptPost p b i s).ListsSound := hl.map rfl fun o h => lists_acceptPost h hi
    exact (held_offerBus ⟨hpost, sessions_acceptPost hss ha b i⟩).2
  | @storeFault p l ha hr =>
    have hd := served_damageAll hss.served fun i hi => reaches_ne_orphaned hstore (hr i hi)
    have hsd := hss.store (StoreFrame.foldl (fun s i => store_damageSlot s i) l s) hd
    generalize l.foldl (fun s i => damageSlot i s) s = u at hd hsd
    refine hsd.tries (try_storeFault u) (served_raiseAll (s := { endGrant u with sched := .faulted }) ?_ .fault)
    exact hd.congr (fun _ => rfl) rfl rfl
  | @retire p i r k _ hr hreach hst =>
    refine (held_offerBus ⟨hl.map (store_retire s _ _ _).exchange fun o h => lists_retire h _ fun ho => ?_,
      hss.store (store_retire s _ _ _) (served_retire hss.served hr (reaches_ne_orphaned hstore hreach r hr) rfl k)⟩).2
    have := hl.owned i r hr ho
    obtain e | e := hst <;> cases e.symm.trans this
  | @cancelActive i r hr hst =>
    refine hss.store (store_setCancelPending s _ _) ?_
    unfold setCancelPending
    split
    · exact hss.served
    · exact served_putRecord hss.served hr (by simp [hst]) rfl
  | flush => exact hss.store (store_flushChain s _) (served_flushChain hss.served hstore _)
  | chainSet | chainPause | overrun => exact hss.congr rfl rfl rfl rfl rfl rfl
  | @chainGo c =>
    have h' : (modChain c (fun ch => { ch with hold := false }) s).SessionsSound := hss.congr rfl rfl rfl rfl rfl rfl
    have hl' : (modChain c (fun ch => { ch with hold := false }) s).ListsSound := lists_modChain hl fun _ => rfl
    exact (held_offerBus ⟨hl', h'⟩).2
  | @chainRetry c i r hh hst =>
    have hlr : (putRecord i r.retried s).ListsSound := hl.map rfl fun o h =>
      lists_head hh h (writes_putRecord _ _) rfl rfl (.inl rfl) fun hb => by simp [Record.onBus, Record.retried] at hb
    have hsr : (putRecord i r.retried s).SessionsSound :=
      hss.store (store_putRecord s _ _) (served_putRecord hss.served (head_slot s hh).2 (by simp [hst]) rfl)
    exact (held_offerBus ⟨hlr, hsr⟩).2
  | pollCreate ha => exact hss.ofPolls (creators_modPoll hss fun b p hb hp => by cases hb; cases hp; exact ha)
  | pollChange _ _ hb => exact hss.ofPolls (creators_modPoll hss fun c p hc hp => by cases hc; exact hss.creators _ _ p hb hp)
  | pollPause hb =>
    exact sessions_phaseTest
      (hss.ofPolls (creators_modPoll hss fun c p hc hp => by cases hc; exact hss.creators _ _ p hb hp))
  | pollResume hb => exact hss.ofPolls (creators_modPoll hss fun c p hc hp => by cases hc; exact hss.creators _ _ p hb hp)
  | pollDelete => exact sessions_phaseTest (hss.ofPolls (creators_modPoll hss fun c p hc => by cases hc))
  | pollAdopt ha => exact hss.ofPolls (creators_modPoll hss fun b p hb hp => by cases hb; cases hp; exact ha)
  | claim ha => exact sessions_setResv hss fun a h => by cases h; exact ha
  | renew he => exact sessions_setResv hss fun a h => by cases h; exact (hss.resvs _ _ he :)
  | release => exact sessions_setResv hss fun a h => by cases h
  | @fetch p i =>
    exact hss.store ((store_unlist s i).trans (store_freeSlot _ i)) (served_freeSlot (served_unlist hss.served i) i)
  | @notify p f ha =>
    refine hss.store (t := modReport p f s) rfl (hss.served.ofReports (fun _ => rfl) rfl fun q hq => ?_)
    simp only [modReport]
    rw [modAt_get, if_neg]
    rintro rfl
    rw [hq] at ha
    cases ha
  | propose => exact sessions_acceptPropose hss _ _
  | proposeAlone => exact (held_consent ⟨lists_acceptPropose hl _ _, sessions_acceptPropose hss _ _⟩ _).2
  | @confirm p pr hp =>
    obtain ⟨h1, h2, hreq⟩ := sessionsSound_iff.mp hss
    refine sessionsSound_iff.mpr ⟨h1.congr (fun _ => rfl) rfl rfl, h2.congr (fun _ => rfl) rfl rfl, fun pr' q hpr' hq => ?_⟩
    cases hpr'
    exact hreq pr q hp hq
  | consent => exact (held_consent ⟨hl, hss⟩ _).2
  | decide =>
    obtain ⟨h1, h2, -⟩ := sessionsSound_iff.mp hss
    exact sessions_decide h1 h2 _ _
  | turnover =>
    have hc : (clearMarks s).SessionsHeld := ⟨hl.congr same_clearMarks rfl, hss.store (store_clearMarks s) (served_clearMarks hss.served)⟩
    have hm : MarksOf (clearMarks s) s.marks := marksOf_marks hss.served
    exact (held_turnoverEvent hc hm).2
  | endExchange he hlead => exact (held_endExchange ⟨hl, hss⟩ he hlead.origin _ _).2
  | lineFault =>
    have h' : ({ s with line := .fault, run := Config.lineFaultBits, releasedCount := 0 } : State).SessionsSound :=
      hss.congr rfl rfl rfl rfl rfl rfl
    exact h'.store (store_raiseAll _ _) (served_raiseAll h'.served _)
  | @lineFaultEnd e he =>
    have h' : ({ s with line := .fault, run := Config.lineFaultBits, releasedCount := 0 } : State).SessionsSound :=
      hss.congr rfl rfl rfl rfl rfl rfl
    have hf : (enterLineFault s).SessionsHeld := ⟨lists_enterLineFault hl, h'.store (store_raiseAll _ _) (served_raiseAll h'.served _)⟩
    exact (held_endExchange hf he rfl _ _).2
  | lineOk =>
    have h' : ({ s with line := .ok, run := 0, releasedCount := 0 } : State).SessionsHeld :=
      ⟨hl.congr (.ofFields rfl rfl rfl) rfl, hss.congr rfl rfl rfl rfl rfl rfl⟩
    exact (held_offerBus h').2
  | upset i stored => exact sessions_upsetSlot hss i stored

theorem held_quiet (h : Quiet s t) (hs : s.SessionsHeld) : t.SessionsHeld := by
  refine ⟨lists_quiet h hs.1, hs.2.move h.attached (by rw [h.frame]) (by rw [h.frame]) (by rw [h.frame]) ?_⟩
  exact hs.2.served.congr h.attached (by rw [h.frame]) (by rw [h.frame])

/-- Settles O55: whatever makes a port the owner of something finds it attached, and a session end takes everything away. -/
theorem detachedPortsHoldNothing : Obligations.DetachedPortsHoldNothing := by
  unfold Obligations.DetachedPortsHoldNothing
  intro s t hl hs h
  refine (step_keeps (I := State.SessionsHeld) (fun s p w ⟨hl, hs⟩ => ?_) (fun s t => held_quiet) (fun s t => held_event) ⟨hl, hs⟩ h).2
  exact ⟨lists_popQueues p w hl, hs.congr rfl rfl rfl rfl rfl rfl⟩

end Sys2Proof.Machine

/-! PROOF. Every counted field stays in its range (O57): one lemma for each operation that writes one. -/

namespace Sys2Proof.Machine

variable {s t : State}

/-! ### Bodies in range -/

theorem satInc_le (limit n : Nat) : satInc limit n ≤ limit := Nat.min_le_left _ _

theorem length_wordsOf (n : Nat) {l : List Byte} (h : l.length = 2 * n) : (wordsOf l).length = n := by
  induction n generalizing l with
  | zero => rw [List.length_eq_zero_iff.mp h]; rfl
  | succ n ih =>
    match l, h with
    | _ :: _ :: rest, h => simp only [wordsOf, List.length_cons, ih (l := rest) (by simp at h; omega)]

theorem span_count_le (sp : Span) : sp.count ≤ 16 := sp.countM1.isLt

theorem dataWords_le (k : Kind) (sp : Span) : dataWords k sp ≤ 16 := by
  have := span_count_le sp
  cases k <;> simp only [dataWords] <;> omega

/-- An accepted POST makes a record in range (R1, R10). -/
theorem parsePost_record {body : List Byte} {b : PostBody} (h : parsePost body = some b) (p : Port) (sweep : Word) :
    (b.record p sweep).InRange := by
  unfold parsePost at h
  split at h
  · split at h
    · cases h
    · next b1 _ _ _ _ _ b7 rest _ k _ =>
      dsimp only at h
      split at h
      · next hr =>
        cases h
        have hb : (b1.extractLsb' 2 3).toNat ≤ 7 := Nat.le_of_lt_succ (b1.extractLsb' 2 3).isLt
        exact ⟨hb, le_rfl, Nat.le_of_lt_succ b7.isLt, Nat.zero_le _, (length_wordsOf _ hr.2.1).trans_le (dataWords_le k _)⟩
      · cases h
  · cases h

/-- A poll definition's ranges (R97). -/
def PollDef.InRange (d : PollDef) : Prop :=
  d.target ≠ 0 ∧ d.span.count ≤ 4 ∧ 1 ≤ d.period ∧ d.period ≤ 250 ∧ d.phase < d.period

theorem extract_ne_zero {t : Byte} (h : 1 ≤ t.toNat ∧ t.toNat ≤ 63) : t.extractLsb' 0 6 ≠ 0 := fun e => by
  have := congrArg BitVec.toNat e
  simp only [BitVec.extractLsb'_toNat, Nat.shiftRight_zero] at this
  change t.toNat % 64 = 0 at this
  omega

theorem parsePollDef_range {body : List Byte} {d : PollDef} (h : parsePollDef body = some d) : d.InRange := by
  unfold parsePollDef at h
  split at h
  · dsimp only at h
    split at h
    · next hr =>
      obtain ⟨h1, h2, hc, -, hp, hp', hph⟩ := hr
      cases h
      exact ⟨extract_ne_zero ⟨h1, h2⟩, hc, hp, hp', hph⟩
    · cases h
  · cases h

theorem parseRanged_range {lo hi : Nat} {f : Nat → Change} {vals : List Byte} {c : Change}
    (h : parseRanged lo hi f vals = some c) : ∃ n, c = f n ∧ lo ≤ n ∧ n ≤ hi := by
  unfold parseRanged at h
  split at h
  · split at h
    · next v hr => cases h; exact ⟨v.toNat, rfl, hr⟩
    · cases h
  · cases h

theorem parseQuotas_range {vals : List Byte} {c : Change} (h : parseQuotas vals = some c) : c.InRange := by
  unfold parseQuotas at h
  split at h
  · split at h
    · next hr => cases h; exact hr
    · cases h
  · cases h

theorem parseBare_eq {c d : Change} {vals : List Byte} (h : parseBare c vals = some d) : d = c := by
  unfold parseBare at h
  split at h
  · cases h; rfl
  · cases h

theorem parseRate_eq {vals : List Byte} {c : Change} (h : parseRate vals = some c) : ∃ r, c = .fieldRate r := by
  unfold parseRate at h
  split at h
  · obtain ⟨r, -, rfl⟩ := Option.map_eq_some_iff.mp h
    exact ⟨r, rfl⟩
  · cases h

/-- A PROPOSE body gives a change in range (R144). -/
theorem parseChange_range {body : List Byte} {c : Change} (h : parseChange body = some c) : c.InRange := by
  unfold parseChange at h
  split at h
  · cases h
  · split_ifs at h
    · obtain ⟨n, rfl, hn⟩ := parseRanged_range h; exact hn
    · obtain ⟨n, rfl, hn⟩ := parseRanged_range h; exact hn
    · exact parseQuotas_range h
    · obtain ⟨r, rfl⟩ := parseRate_eq h; trivial
    · rw [parseBare_eq h]; trivial
    · rw [parseBare_eq h]; trivial
    · rw [parseBare_eq h]; trivial

/-! ### Slots, chains and reports -/

/-- Reports hold no counted field. -/
theorem range_reports (h : s.InRange) (r : Vector Report 4) : ({ s with reports := r } : State).InRange := { h with }

theorem range_mark (h : s.InRange) (d : Deferred) (p : Port) : (mark d p s).InRange := by
  unfold mark; split
  · exact range_reports h _
  · exact h

theorem range_raise (h : s.InRange) (c : Cause) (p : Port) : (raise c p s).InRange := by
  unfold raise; split
  · exact range_reports h _
  · exact h

theorem range_putRecord (h : s.InRange) {i : SlotIx} {r : Record} (hr : r.InRange) : (putRecord i r s).InRange :=
  { h with
    records := fun j q hq => by
      rw [record_putRecord] at hq
      split at hq
      · cases hq; exact hr
      · exact h.records j q hq }

theorem range_freeSlot (h : s.InRange) (i : SlotIx) : (freeSlot i s).InRange :=
  { h with
    records := fun j q hq => by
      rw [record_freeSlot] at hq
      split at hq
      · cases hq
      · exact h.records j q hq }

theorem range_chain_remove {ch : Chain} (h : ch.InRange) (i : SlotIx) : (ch.remove i).InRange := by
  unfold Chain.remove
  obtain ⟨hp, hb, hb', ha⟩ := h
  split
  · refine ⟨hp, hb, hb', ?_⟩
    dsimp only
    split <;> omega
  · exact ⟨hp, hb, hb', ha⟩

theorem range_unlist (h : s.InRange) (i : SlotIx) : (unlist i s).InRange := by
  have hc : ∀ c : ChainIx, (unlist i s).chains[c].InRange := fun c => by
    rw [unlist_chains, tab_get]
    exact range_chain_remove (h.chains c) i
  rw [store_unlist s i]
  exact { h with chains := hc }

theorem range_chains (h : s.InRange) {v : Vector Chain 16} (hv : ∀ c : ChainIx, v[c].InRange) :
    ({ s with chains := v } : State).InRange := { h with chains := hv }

theorem range_enqueueNote (h : s.InRange) (p : Port) (i : SlotIx) : (enqueueNote p i s).InRange :=
  range_mark (range_reports h _) .report p

theorem range_retire (h : s.InRange) {i : SlotIx} {r : Record} (hr : r.InRange) (k : EndKind) : (retire i r k s).InRange := by
  have hput : ∀ w, (putRecord i { r with state := .done, endKind := some k, completionSweep := w } (unlist i s)).InRange :=
    fun w => range_putRecord (range_unlist h i) hr
  unfold retire
  dsimp only
  split
  · exact range_enqueueNote (hput _) _ i
  · exact hput _

theorem range_haltHead (h : s.InRange) {i : SlotIx} {r : Record} (hr : r.InRange) (c : ChainIx) (why : HaltReason) :
    (haltHead c i r why s).InRange :=
  range_mark (range_putRecord (r := { r with state := .halted, haltReason := .known why }) h hr) .halt _

theorem range_retireSlot (h : s.InRange) (i : SlotIx) (k : EndKind) : (retireSlot i k s).InRange := by
  unfold retireSlot
  split
  · next r hr => exact range_retire h (h.records i r hr) k
  · exact h

theorem range_retireAll (h : s.InRange) (k : EndKind) (l : List SlotIx) : (retireAll k l s).InRange :=
  foldl_keeps (I := State.InRange) (fun _ i h => range_retireSlot h i k) l h

theorem range_damageSlot (h : s.InRange) (i : SlotIx) : (damageSlot i s).InRange := by
  unfold damageSlot
  split
  · next r hr => exact range_putRecord (r := { r with state := .damaged }) (range_unlist h i) (h.records i r hr)
  · exact h

theorem range_setCancelPending (h : s.InRange) {i : SlotIx} {r : Record} (hr : r.InRange) : (setCancelPending i r s).InRange := by
  unfold setCancelPending
  split
  · exact h
  · exact range_putRecord (r := { r with cancelPending := true }) h hr

theorem range_flushChain (h : s.InRange) (c : ChainIx) : (flushChain c s).2.2.InRange := by
  unfold flushChain
  split
  · next i r hh =>
    split
    · exact range_retireAll (range_setCancelPending h (h.records i r (head_slot s hh).2)) _ _
    · exact range_retireAll h _ _
  · exact h

theorem range_disposeDamaged (h : s.InRange) (i : SlotIx) : (disposeDamaged s i).InRange := by
  unfold disposeDamaged
  split
  · exact h
  · next r hr =>
    split
    · split
      · split
        · exact range_retire h (h.records i r hr) _
        · exact range_freeSlot h i
      · exact range_freeSlot h i
    · exact h

theorem range_checkDeadline (h : s.InRange) (c : ChainIx) : (checkDeadline s c).InRange := by
  unfold checkDeadline
  split
  · next i r hh =>
    split
    · exact range_haltHead h (h.records i r (head_slot s hh).2) c _
    · exact h
  · exact h

theorem range_upsetTo {r : Record} (h : r.InRange) (stored : Record) : (r.upsetTo stored).InRange := by
  obtain ⟨hb, hl, hd, ha, -⟩ := h
  exact ⟨hb, hl, hd, ha, List.length_take_le _ _⟩

theorem range_upsetSlot (h : s.InRange) (i : SlotIx) (stored : Record) : (upsetSlot i stored s).InRange := by
  unfold upsetSlot
  split
  · next r hr =>
    refine { h with records := fun j q hq => ?_ }
    simp only [State.record] at hq
    rw [modAt_get] at hq
    split at hq
    · cases hq; exact range_upsetTo (h.records i r hr) stored
    · exact h.records j q hq
  · exact h

/-! ### Tries -/

theorem range_endGrant (h : s.InRange) : (endGrant s).InRange := { h with grant := fun _ hg => by cases hg }

theorem range_storeFault (h : s.InRange) : (storeFault s).InRange :=
  range_reports (s := { endGrant s with sched := .faulted }) { range_endGrant h with } _

theorem range_startExchange (h : s.InRange) {e : Exchange} (he : e.InRange) : (startExchange e s).InRange :=
  { h with exchange := fun e' h' => by cases h'; exact he }

/-- An exchange at its start, for a record (R45, R48). -/
theorem range_newExchange {i : SlotIx} {g : Byte} {ph : ExPhase} {op : Op} {a : BitVec 6} {sp : Span} {par : Bool} {send : List Word}
    {old : Option Word} (h : send.length ≤ 16) : (newExchange (.record i g) ph op a sp par send old).InRange :=
  ⟨Nat.zero_le _, fun _ => Nat.zero_le _, h, fun _ _ ho => by cases ho⟩

theorem range_recordExchange {r : Record} (h : r.InRange) (i : SlotIx) : (recordExchange s i r).InRange := by
  obtain ⟨-, -, -, -, hd⟩ := h
  unfold recordExchange
  dsimp only
  split
  · exact range_newExchange (Nat.zero_le _)
  · exact range_newExchange hd
  · exact range_newExchange (Nat.zero_le _)
  · exact range_newExchange hd

theorem range_tryStart (h : s.InRange) (c : ChainIx) : (tryStart c s).InRange := by
  unfold tryStart
  split
  · exact range_endGrant h
  · next i r hh =>
    have hr := h.records i r (head_slot s hh).2
    split
    · exact range_storeFault (range_damageSlot h i)
    · split
      · exact range_endGrant (range_haltHead h hr c _)
      · exact range_startExchange (range_putRecord (r := { r with state := .active }) h hr) (range_recordExchange hr i)

theorem range_burstContinue (h : s.InRange) (c : ChainIx) : (burstContinue c s).InRange := by
  unfold burstContinue
  split
  · split
    · split
      · next g _ _ hm =>
        have hn : g.completed + 1 < s.chains[c].burst := by
          simp only [State.mayContinue, Bool.and_eq_true, decide_eq_true_eq] at hm
          exact hm.1.1.1.1.1
        obtain ⟨-, -, hb, -⟩ := h.chains c
        exact range_tryStart (s := { s with grant := some { chain := c, completed := g.completed + 1 } })
          { h with grant := fun g' hg' => by cases hg'; dsimp only; omega } c
      · exact range_endGrant h
    · exact h
  · exact h

theorem range_afterTry {r : Record} (h : r.InRange) (e : TryEnd) : (r.afterTry e).InRange := by
  obtain ⟨hb, hl, hd, ha, hw⟩ := h
  have hs : satInc 255 r.attempts ≤ 255 := satInc_le _ _
  unfold Record.afterTry
  split
  · exact ⟨hb, hl, hd, ha, hw⟩
  · exact ⟨hb, hl, hd, hs, hw⟩
  · exact ⟨hb, hl, hd, hs, hw⟩
  · exact ⟨hb, hl, hd, hs, hw⟩
  · exact ⟨hb, hl, hd, ha, hw⟩

theorem range_leaveCompleted (h : s.InRange) {i : SlotIx} {r : Record} (hr : r.InRange) (o : Outcome) :
    (leaveCompleted i r o s).InRange := by
  unfold leaveCompleted
  split
  · exact range_freeSlot (range_unlist h i) i
  · exact range_retire h hr _

theorem range_skipGroup (h : s.InRange) (r : Record) (o : Outcome) : (skipGroup r o s).InRange := by
  unfold skipGroup
  split
  · exact range_retireAll h _ _
  · exact h

theorem range_requeueHead (h : s.InRange) {i : SlotIx} {r : Record} (hr : r.InRange) : (requeueHead i r s).InRange :=
  range_endGrant (range_putRecord (r := { r with state := .queued }) h hr)

theorem range_spendBudget (h : s.InRange) {i : SlotIx} {r : Record} (hr : r.InRange) : (spendBudget i r s).InRange := by
  have hr' : ({ r with budgetLeft := r.budgetLeft - 1 } : Record).InRange := by
    obtain ⟨hb, hl, hd, ha, hw⟩ := hr
    exact ⟨hb, (Nat.sub_le _ _).trans hl, hd, ha, hw⟩
  unfold spendBudget
  split
  · exact range_requeueHead h hr
  · dsimp only
    split
    · exact range_endGrant (range_haltHead h hr' _ _)
    · exact range_requeueHead h hr'

theorem range_tryResult (h : s.InRange) {i : SlotIx} {r : Record} (hr : r.InRange) (k : TryResult i r s t) : t.InRange := by
  cases k with
  | completes res he =>
    obtain ⟨e, rfl⟩ := he
    have hc : ((r.afterTry e).completed res).InRange := range_afterTry hr e
    exact range_burstContinue (range_skipGroup (range_leaveCompleted h hc _) _ _) _
  | cancelled he =>
    obtain ⟨e, rfl⟩ := he
    exact range_endGrant (range_retire h (range_afterTry hr e) _)
  | requeued he =>
    obtain ⟨e, rfl⟩ := he
    exact range_requeueHead h (range_afterTry hr e)
  | halted he =>
    obtain ⟨e, rfl⟩ := he
    exact range_endGrant (range_haltHead h (range_afterTry hr e) _ _)
  | spent he =>
    obtain ⟨e, rfl⟩ := he
    exact range_spendBudget h (range_afterTry hr e)

theorem range_recordOutcome (h : s.InRange) {e : Exchange} {i : SlotIx} {g : Byte} (he : e.origin = .record i g) (o : Outcome)
    (words : List Word) : (recordOutcome e i g o words s).InRange := by
  generalize ht : recordOutcome e i g o words s = t
  cases ht ▸ recordOutcome_result e i g o words s with
  | nothing => exact h
  | freed => exact range_freeSlot h i
  | tried hr _ _ hres => exact range_tryResult h (h.records i _ hr) hres
  | writes old =>
    refine range_startExchange h ?_
    rw [writePhase, he]
    exact range_newExchange (by simp)

/-! ### Polls, targets and leases -/

theorem range_modPoll (h : s.InRange) {i : PollIx} {f : PollEntry → PollEntry}
    (hf : ∀ b : PollBody, (f s.polls[i]).body = some b → b.InRange) : (modPoll i f s).InRange :=
  { h with
    polls := fun j b hb => by
      rw [modPoll_get] at hb
      split at hb
      · exact hf b hb
      · exact h.polls j b hb }

theorem range_phaseTest (h : s.InRange) : (phaseTest s).InRange := phaseTest_keeps (fun _ h => { h with }) h

theorem range_unpend (h : s.InRange) (i : PollIx) : (unpend i s).InRange :=
  range_phaseTest (s := { s with pollPending := s.pollPending.filter (· != i) }) { h with }

theorem range_startPoll (h : s.InRange) (hl : s.pollsLeft) : (startPoll s).InRange := by
  obtain ⟨-, -, hlt⟩ := hl
  unfold startPoll
  split
  · exact h
  · next i rest _ =>
    split
    · exact { h with }
    · next b hb =>
      obtain ⟨-, hc, -⟩ := h.polls i b hb
      refine range_startExchange (s := { s with pollPending := rest, pollsRun := s.pollsRun + 1 }) { h with pollsRun := hlt } ?_
      exact ⟨Nat.zero_le _, fun _ => Nat.zero_le _, Nat.zero_le _, fun _ _ _ => hc⟩

theorem range_grantTo (h : s.InRange) (c : ChainIx) : (grantTo c s).InRange := by
  have hc : ∀ d : ChainIx, (grantTo c s).chains[d].InRange := fun d => by
    obtain ⟨hp, hb, hb', ha⟩ := h.chains d
    rw [grantTo_chain]
    split
    · exact ⟨hp, hb, hb', Nat.zero_le _⟩
    · split
      · exact ⟨hp, hb, hb', satInc_le _ _⟩
      · exact ⟨hp, hb, hb', ha⟩
  rw [grantTo_frame]
  exact { h with chains := hc, grant := fun g hg => by cases hg; exact Nat.zero_le _ }

theorem range_offerBus (h : s.InRange) : (offerBus s).InRange := by
  refine offerBus_keeps (I := State.InRange) ?_ ?_ ?_ ?_ h
  · exact fun s h => { h with }
  · exact fun s h => { h with }
  · exact fun s _ hl h => range_startPoll h hl
  · exact fun s c _ _ h => range_tryStart (range_grantTo h c) c

theorem range_after {b : PollBody} (h : b.InRange) (o : Outcome) {words : List Word} (hw : words.length ≤ 4) :
    ({ b with snap := b.snap.after b o words } : PollBody).InRange := by
  obtain ⟨ht, hc, hp, hp', hph, hm, ha, hf, hl⟩ := h
  refine ⟨ht, hc, hp, hp', hph, hm, ?_⟩
  dsimp only [Snapshot.after]
  split
  · exact ⟨Nat.zero_le _, Nat.zero_le _, hw⟩
  · exact ⟨ha, satInc_le _ _, hl⟩

theorem range_pollOutcome (h : s.InRange) (i : PollIx) (edit : Byte) (o : Outcome) {words : List Word} (hw : words.length ≤ 4) :
    (pollOutcome i edit o words s).InRange := by
  unfold pollOutcome
  split
  · exact h
  · next b hb =>
    split
    · exact h
    · split
      · split
        · exact h
        · exact { h with }
      · dsimp only
        have hput : (modPoll i (fun en => { en with body := some { b with snap := b.snap.after b o words } }) s).InRange :=
          range_modPoll h fun c hc => by cases hc; exact range_after (h.polls i b hb) o hw
        split
        · split
          · exact range_mark hput _ _
          · exact hput
        · exact hput

theorem range_handOff (h : s.InRange) {e : Exchange} (he : e.InRange) (o : Outcome) {words : List Word}
    (hw : words.length ≤ e.span.count) : (handOff e o words s).InRange := by
  obtain ⟨-, -, -, hpoll⟩ := he
  unfold handOff
  split
  · next i g ho => exact range_recordOutcome h ho o words
  · next i edit ho => exact range_pollOutcome h i edit o (hw.trans (hpoll i edit ho))

theorem range_updateTarget (h : s.InRange) (e : Exchange) (o : Outcome) : (updateTarget e o s).InRange := by
  unfold updateTarget
  split
  · exact h
  · next a _ =>
    split
    · exact h
    · dsimp only
      have hput : ({ s with targets := modAt s.targets a fun en => en.after e o s.sweep } : State).InRange :=
        { h with
          targets := fun b => by
            rw [modAt_get]
            split
            · have hold := h.targets a
              dsimp only [Target.after]
              split
              · exact Nat.zero_le _
              · split
                · exact satInc_le _ _
                · exact hold
            · exact h.targets b }
      split
      · exact range_reports hput _
      · exact hput

theorem range_setResv (h : s.InRange) {e : ResvIx} {x : Option Reservation} (hx : ∀ a, x = some a → a.InRange) :
    (setResv e x s).InRange :=
  { h with
    leases := fun f a ha => by
      rw [setResv_get] at ha
      split at ha
      · exact hx a ha
      · exact h.leases f a ha }

theorem range_lowerLease (h : s.InRange) (e : ResvIx) : (lowerLease s e).InRange := by
  unfold lowerLease
  split
  · exact h
  · next a ha =>
    obtain ⟨-, hle, hmax⟩ := h.leases e a ha
    split
    · exact range_raise (range_setResv (e := e) (x := none) h fun _ h => by cases h) _ _
    · next hn =>
      refine range_setResv (e := e) h fun b hb => ?_
      cases hb
      exact ⟨by dsimp only; omega, (Nat.sub_le _ _).trans hle, hmax⟩

/-! ### Decisions -/

theorem range_applyChange (h : s.InRange) {c : Change} (hc : c.InRange) : (applyChange c s).InRange := by
  cases c with
  | sweepLength ms => exact { h with nextLength := fun n hn => by cases hn; exact hc }
  | pollWindow w => exact { h with nextWindow := fun n hn => by cases hn; exact hc }
  | quotas q => exact { h with quotas := hc }
  | fieldRate r => exact { h with line := ⟨Nat.zero_le _, Nat.zero_le _⟩ }
  | stop => exact { range_endGrant h with }
  | start => exact { h with }
  | restart =>
    have hall := foldl_keeps (I := State.InRange) (fun s i h => range_disposeDamaged h i) (List.finRange 128) h
    rw [applyChange_restart]
    generalize (List.finRange 128).foldl disposeDamaged s = u at hall
    exact { hall with }

theorem range_decideProposal (h : s.InRange) {pr : Proposal} {v : Verdict} (hc : v = .adopted → pr.change.InRange) :
    (decideProposal pr v s).InRange := by
  have happlied : (if v = .adopted then applyChange pr.change s else s).InRange := by
    split
    · next hv => exact range_applyChange h (hc hv)
    · exact h
  have hrecorded : ∀ u : State, u.InRange → ∀ d, ({ u with decision := d, proposal := none } : State).InRange :=
    fun u hu d => { hu with proposal := fun pr hpr => by cases hpr }
  exact range_reports (hrecorded _ happlied _) _

theorem range_proposal (h : s.InRange) {pr : Proposal} (hpr : pr.change.InRange ∧ 1 ≤ pr.window ∧ pr.window ≤ 64) :
    ({ s with proposal := some pr } : State).InRange :=
  { h with proposal := fun q hq => by cases hq; exact hpr }

theorem range_consent (h : s.InRange) {pr : Proposal} (hc : pr.change.InRange) : (decideByConsent pr s).InRange :=
  range_offerBus (range_decideProposal h fun _ => hc)

theorem range_leaveProposal (h : s.InRange) (p : Port) : (leaveProposal p s).InRange := by
  unfold leaveProposal
  split
  · exact h
  · next pr hpr =>
    obtain ⟨hc, hw⟩ := h.proposal pr hpr
    split
    · exact h
    · dsimp only
      split_ifs
      · exact range_decideProposal h fun _ => hc
      · exact range_decideProposal h fun _ => hc
      · exact range_proposal h ⟨hc, hw⟩

theorem range_lowerWindow (h : s.InRange) : (lowerWindow s).InRange := by
  unfold lowerWindow
  split
  · exact h
  · next pr hpr =>
    obtain ⟨hc, -, hw⟩ := h.proposal pr hpr
    dsimp only
    split
    · exact range_decideProposal h fun _ => hc
    · next hn => exact range_proposal h ⟨hc, Nat.one_le_iff_ne_zero.mpr hn, (Nat.sub_le _ _).trans hw⟩

theorem range_acceptPropose (h : s.InRange) (p : Port) {c : Change} (hc : c.InRange) : (acceptPropose p c s).InRange := by
  have hput : ({ s with lastNumber := (newProposal p c s).number, proposal := some (newProposal p c s) } : State).InRange :=
    { h with proposal := fun q hq => by cases hq; exact ⟨hc, (by decide : 1 ≤ Config.proposalWindow), (by decide : Config.proposalWindow ≤ 64)⟩ }
  unfold acceptPropose raiseProposal
  refine foldl_keeps (I := State.InRange) (fun s q h => ?_) _ hput
  split
  · exact range_raise h _ _
  · exact h

/-! ### Turnovers, ends of exchanges, and session ends -/

theorem range_advanceSweep (h : s.InRange) : (advanceSweep s).InRange := by
  have hlen : 1 ≤ s.nextSweepLength.getD s.sweepLength ∧ s.nextSweepLength.getD s.sweepLength ≤ 100 := by
    cases hn : s.nextSweepLength with
    | none => exact h.length
    | some n => exact h.nextLength n hn
  have hwin : 1 ≤ s.nextPollWindow.getD s.pollWindow ∧ s.nextPollWindow.getD s.pollWindow ≤ 48 := by
    cases hn : s.nextPollWindow with
    | none => exact h.window
    | some n => exact h.nextWindow n hn
  exact { h with
    timer := rfl
    length := hlen
    nextLength := fun n hn => by cases hn
    window := hwin
    nextWindow := fun n hn => by cases hn
    pollsRun := Nat.zero_le _ }

theorem pollTurnover_frame :
    pollTurnover s = { s with polls := (pollTurnover s).polls, pollPending := (pollTurnover s).pollPending } := by
  simp only [pollTurnover]

theorem range_pollTurnover (h : s.InRange) : (pollTurnover s).InRange := by
  have hp : ∀ (i : PollIx) (b : PollBody), (pollTurnover s).polls[i].body = some b → b.InRange := fun i b hb => by
    rw [pollTurnover_poll, Option.map_eq_some_iff] at hb
    obtain ⟨b', hb', rfl⟩ := hb
    obtain ⟨ht, hc, hp, hp', hph, hm, -, hf, hl⟩ := h.polls i b' hb'
    refine ⟨ht, hc, hp, hp', hph, ?_, satInc_le _ _, hf, hl⟩
    dsimp only [PollBody.atTurnover]
    split
    · exact satInc_le _ _
    · exact hm
  have hf := pollTurnover_frame (s := s)
  generalize pollTurnover s = u at hf hp ⊢
  rw [hf]
  exact { h with polls := hp }

theorem range_turnoverEvent (h : s.InRange) (m : Marks) : (turnoverEvent m s).InRange := by
  refine range_offerBus (turnoverReactions_keeps (I := State.InRange) ?_ ?_ ?_ ?_ ?_ ?_ h)
  · exact fun s h => range_advanceSweep h
  · exact fun s h => range_reports h _
  · exact fun s h => range_pollTurnover h
  · exact fun s c h => range_checkDeadline h c
  · exact fun s e h => range_lowerLease h e
  · exact fun s h => range_lowerWindow h

theorem range_drained (h : s.InRange) : (drained s).InRange := by
  unfold drained
  split
  · exact { h with }
  · exact h

theorem range_endExchange (h : s.InRange) {e : Exchange} (he : e.InRange) (o : Outcome) {words : List Word}
    (hw : words.length ≤ e.span.count) : (endExchange e o words s).InRange := by
  have hclear : (clearMarks s).InRange := range_reports h _
  have hidle : ({ clearMarks s with exchange := none } : State).InRange :=
    { hclear with exchange := fun _ h => by cases h }
  refine afterExchange_keeps (I := State.InRange) (J := State.InRange) range_drained ?_ ?_
    (range_handOff (range_updateTarget hidle e o) he o hw)
  · exact fun s _ h => range_turnoverEvent h _
  · exact fun s h => range_offerBus (range_reports h _)

theorem range_slot_sessionEnd {sl : Slot} {p : Port} {r' : Record} (h : (sl.sessionEnd p).record = some r')
    (hsl : ∀ r, sl.record = some r → r.InRange) : r'.InRange := by
  obtain ⟨r, hr, -, ⟨-, rfl⟩ | ⟨-, -, rfl⟩ | ⟨-, -, rfl⟩⟩ := sessionEnd_held h
  all_goals exact (hsl _ hr :)

theorem range_leaveBlocks (h : s.InRange) (p : Port) : (leaveBlocks p s).InRange where
  records i r hr := by
    rw [State.record, record_leaveBlocks] at hr
    exact range_slot_sessionEnd hr (h.records i)
  quotas := h.quotas
  chains c := by
    rw [chain_leaveBlocks]
    split
    · exact ⟨by decide, by decide, by decide, by decide⟩
    · exact h.chains c
  targets := h.targets
  polls i b hb := by
    simp only [leaveBlocks] at hb
    rw [tab_get, PollEntry.sessionEnd, Option.map_eq_some_iff] at hb
    obtain ⟨b', hb', rfl⟩ := hb
    exact h.polls i b' hb'
  timer := h.timer
  length := h.length
  nextLength := h.nextLength
  window := h.window
  nextWindow := h.nextWindow
  pollsRun := h.pollsRun
  overruns := h.overruns
  proposal := h.proposal
  line := h.line
  exchange := h.exchange
  leases e a ha := by
    simp only [leaveBlocks] at ha
    rw [tab_get, Option.filter_eq_some_iff] at ha
    exact h.leases e a ha.1
  grant g hg := h.grant g (Option.filter_eq_some_iff.mp hg).1
  answers q a ha := by
    simp only [leaveBlocks] at ha
    rw [modAt_get] at ha
    split at ha
    · exact h.answers p a ha
    · exact h.answers q a ha

theorem range_reset : State.reset.InRange where
  records i r hr := by rw [show State.reset.record i = none from reset_record i] at hr; cases hr
  quotas := by decide +kernel
  chains c := by rw [reset_chain]; exact ⟨by decide, by decide, by decide, by decide⟩
  targets a := by simp [State.reset, Target.powerOn]
  polls i b hb := by simp [State.reset] at hb
  timer := rfl
  length := ⟨by decide, by decide⟩
  nextLength n hn := by cases hn
  window := ⟨by decide, by decide⟩
  nextWindow n hn := by cases hn
  pollsRun := Nat.zero_le _
  overruns := Nat.zero_le _
  proposal pr hpr := by cases hpr
  line := ⟨Nat.zero_le _, Nat.zero_le _⟩
  exchange e he := by cases he
  leases e a ha := by simp [State.reset] at ha
  grant g hg := by cases hg
  answers p a ha := by simp [State.reset, PortIf.powerOn] at ha

theorem range_powerOn : (powerOn s).InRange :=
  { range_reset with
    answers := fun p a ha => by
      simp only [powerOn] at ha
      rw [tab_get] at ha
      cases ha }

/-! ### The events -/

theorem range_enterLineFault (h : s.InRange) : (enterLineFault s).InRange :=
  range_reports (s := { s with line := .fault, run := Config.lineFaultBits, releasedCount := 0 })
    { h with line := ⟨(by decide : Config.lineFaultBits ≤ 64), Nat.zero_le _⟩ } _

theorem range_acceptPost (h : s.InRange) {body : List Byte} {b : PostBody} (hb : parsePost body = some b) (p : Port) (i : SlotIx) :
    (acceptPost p b i s).InRange := by
  refine range_chains (range_putRecord h (parsePost_record hb p s.sweep)) fun c => ?_
  rw [modAt_get]
  split
  · exact h.chains _
  · exact h.chains c

theorem range_modChain (h : s.InRange) {c : ChainIx} {f : Chain → Chain} (hf : (f s.chains[c]).InRange) : (modChain c f s).InRange :=
  range_chains h fun d => by
    rw [modAt_get]
    split
    · exact hf
    · exact h.chains d

theorem range_event (h : Event s t) (hs : s.InRange) : t.InRange := by
  cases h with
  | nothing => exact hs
  | powerOn => exact range_powerOn
  | @attach p _ =>
    refine { hs with answers := fun q a ha => ?_ }
    simp only [modPort] at ha
    rw [modAt_get] at ha
    split at ha
    · exact hs.answers p a ha
    · exact hs.answers q a ha
  | sessionEnd => exact range_offerBus (range_leaveProposal (range_leaveBlocks hs _) _)
  | post _ hb => exact range_offerBus (range_acceptPost hs hb _ _)
  | storeFault => exact range_storeFault (foldl_keeps (I := State.InRange) (fun _ i h => range_damageSlot h i) _ hs)
  | retire _ hr => exact range_offerBus (range_retire hs (hs.records _ _ hr) _)
  | cancelActive hr => exact range_setCancelPending hs (hs.records _ _ hr)
  | flush => exact range_flushChain hs _
  | @chainSet c _ _ hp hb =>
    obtain ⟨-, -, -, ha⟩ := hs.chains c
    exact range_modChain hs ⟨hp, hb.1, hb.2, ha⟩
  | @chainPause c => exact range_modChain hs (hs.chains c)
  | @chainGo c => exact range_offerBus (range_modChain hs (hs.chains c))
  | @chainRetry c i r hh =>
    obtain ⟨hb, -, hd, ha, hw⟩ := hs.records i r (head_slot s hh).2
    exact range_offerBus (range_putRecord hs ⟨hb, le_rfl, hd, ha, hw⟩)
  | @pollCreate _ _ d _ _ hd =>
    refine range_modPoll hs fun b hb => ?_
    cases hb
    obtain ⟨ht, hc, hp, hp', hph⟩ := parsePollDef_range hd
    exact ⟨ht, hc, hp, hp', hph, Nat.zero_le _, Nat.zero_le _, Nat.zero_le _, by simpa [PollDef.body, Snapshot.fresh] using hc⟩
  | pollChange hd _ hb =>
    refine range_modPoll hs fun c hc => ?_
    cases hc
    obtain ⟨ht, hc, hp, hp', hph⟩ := parsePollDef_range hd
    obtain ⟨-, -, -, -, -, hm, hsnap⟩ := hs.polls _ _ hb
    exact ⟨ht, hc, hp, hp', hph, hm, hsnap⟩
  | pollPause hb => exact range_unpend (range_modPoll hs fun c hc => by cases hc; exact (hs.polls _ _ hb :)) _
  | pollResume hb => exact range_modPoll hs fun c hc => by cases hc; exact (hs.polls _ _ hb :)
  | pollDelete => exact range_unpend (range_modPoll hs fun c hc => by cases hc) _
  | pollAdopt _ hb => exact range_modPoll hs fun c hc => by cases hc; exact (hs.polls _ _ hb :)
  | claim _ hb =>
    obtain ⟨h1, h2⟩ := parseClaim_lease hb
    exact range_setResv hs fun a ha => by cases ha; exact ⟨h1, le_rfl, h2⟩
  | renew he =>
    obtain ⟨h1, hle, h2⟩ := hs.leases _ _ he
    exact range_setResv hs fun a ha => by cases ha; exact ⟨h1.trans hle, le_rfl, h2⟩
  | release => exact range_setResv hs fun a ha => by cases ha
  | fetch => exact range_freeSlot (range_unlist hs _) _
  | notify => exact range_reports hs _
  | propose _ hb => exact range_acceptPropose hs _ (parseChange_range hb)
  | proposeAlone hb => exact range_consent (range_acceptPropose hs _ (parseChange_range hb)) (parseChange_range hb)
  | confirm hp => exact range_proposal hs (hs.proposal _ hp :)
  | consent hp => exact range_consent hs (hs.proposal _ hp).1
  | decide hv => exact range_decideProposal hs fun h => absurd h hv
  | overrun => exact { range_endGrant hs with overruns := satInc_le _ _ }
  | turnover => exact range_turnoverEvent (range_reports hs _) _
  | endExchange he hl hw => exact range_endExchange hs (hl.range (hs.exchange _ he)) _ (by rw [hl.span]; exact hw)
  | lineFault => exact range_enterLineFault hs
  | lineFaultEnd he => exact range_endExchange (range_enterLineFault hs) (hs.exchange _ he) _ (Nat.zero_le _)
  | lineOk =>
    exact range_offerBus (s := { s with line := .ok, run := 0, releasedCount := 0 })
      { hs with line := ⟨Nat.zero_le _, Nat.zero_le _⟩ }
  | upset i stored => exact range_upsetSlot hs i stored

theorem range_quiet (h : Quiet s t) (hs : s.InRange) : t.InRange := by
  have hx : ∀ e' : Exchange, t.exchange = some e' → e'.InRange := fun e' he' => by
    cases he : s.exchange with
    | none => rw [h.idle he] at he'; cases he'
    | some e =>
      obtain ⟨f, hf, hlead⟩ := h.course e he
      cases hf.symm.trans he'
      exact hlead.range (hs.exchange e he)
  have hline := And.intro (h.run hs.line.1) (h.released hs.line.2)
  have hans := h.answers hs.answers
  rw [h.frame]
  exact { hs with line := hline, exchange := hx, answers := hans }

/-- Settles O57: every operation that writes a counted field writes it in its range. -/
theorem fieldsStayInRange : Obligations.FieldsStayInRange := by
  unfold Obligations.FieldsStayInRange
  intro s t hs h
  exact step_keeps (I := State.InRange) (fun s p w hs => { hs with }) (fun s t => range_quiet) (fun s t => range_event) hs h

end Sys2Proof.Machine

/-! PROOF. The gates of the bus stay sound (O58), and a free bus is offered (O59). `GatesOpen` is the part of the gates that holds within
an event too; an offer of the bus settles the rest. -/

namespace Sys2Proof.Machine

variable {s t : State} {c d : ChainIx}

/-! ### The parts of the gates -/

/-- What the gates keep within an event: no exchange in LINE FAULT, no grant under an expired timer, and a grant only of a BUSY chain
under RUNNING (R31, R33, R61, R82). -/
structure State.GatesOpen (s : State) : Prop where
  fault_idle : s.line = .fault → s.exchange = none
  expired_ungranted : s.expired = true → s.grant = none
  grant_busy : ∀ g : Grant, s.grant = some g → s.sched = .running ∧ s.chainState g.chain = .busy

/-- What waits for the end of an exchange: an expired timer and a DRAINING scheduler (R82, R156). -/
def State.Waits (s : State) : Prop := (s.expired = true → s.exchange ≠ none) ∧ (s.sched = .draining → s.exchange ≠ none)

/-- A poll phase with an idle engine has polls left to run (R88). -/
def State.PollsOn (s : State) : Prop := s.phase = .poll → s.exchange = none → s.pollPending ≠ [] ∧ s.pollsRun < s.pollWindow

theorem gatesSound_iff : s.GatesSound ↔ s.GatesOpen ∧ s.Waits ∧ s.PollsOn :=
  ⟨fun h => ⟨⟨h.fault_idle, fun he => (h.expired_busy he).2, h.grant_busy⟩, ⟨fun he => (h.expired_busy he).1, h.draining_busy⟩,
      h.poll_phase⟩,
    fun ⟨h, ⟨hx, hd⟩, hp⟩ => ⟨h.fault_idle, fun he => ⟨hx he, h.expired_ungranted he⟩, hd, h.grant_busy, hp⟩⟩

theorem gatesOpen_of_ungranted (hl : s.line = .fault → s.exchange = none) (hg : s.grant = none) : s.GatesOpen :=
  ⟨hl, fun _ => hg, fun g h => by rw [hg] at h; cases h⟩

/-- What the gates read of the bus, apart from the chains' states, is the same. -/
structure SameBus (s t : State) : Prop where
  exchange : t.exchange = none ↔ s.exchange = none
  line : t.line = s.line
  expired : t.expired = s.expired
  sched : t.sched = s.sched
  grant : t.grant = s.grant
  phase : t.phase = s.phase
  pollPending : t.pollPending = s.pollPending
  pollsRun : t.pollsRun = s.pollsRun
  pollWindow : t.pollWindow = s.pollWindow

namespace SameBus

theorem ofStore (k : StoreFrame s t) : SameBus s t :=
  ⟨by rw [k.exchange], k.line, k.expired, k.sched, k.grant, k.phase, k.pollPending, k.pollsRun, k.pollWindow⟩

theorem trans {u : State} (h : SameBus s t) (k : SameBus t u) : SameBus s u :=
  ⟨k.exchange.trans h.exchange, k.line.trans h.line, k.expired.trans h.expired, k.sched.trans h.sched, k.grant.trans h.grant,
    k.phase.trans h.phase, k.pollPending.trans h.pollPending, k.pollsRun.trans h.pollsRun, k.pollWindow.trans h.pollWindow⟩

theorem mayOffer (k : SameBus s t) : t.mayOffer = s.mayOffer := by
  have hx : t.exchange.isNone = s.exchange.isNone := by
    rw [Bool.eq_iff_iff, Option.isNone_iff_eq_none, Option.isNone_iff_eq_none, k.exchange]
  simp only [State.mayOffer, State.idle, hx, k.grant, k.expired, k.sched, k.line]

theorem waits (k : SameBus s t) (h : s.Waits) : t.Waits := by
  simpa only [State.Waits, ne_eq, k.exchange, k.expired, k.sched] using h

theorem pollsOn (k : SameBus s t) (h : s.PollsOn) : t.PollsOn := by
  simpa only [State.PollsOn, k.exchange, k.phase, k.pollPending, k.pollsRun, k.pollWindow] using h

end SameBus

/-! ### The chains' states -/

theorem chainState_congr (hl : t.chains[c].list = s.chains[c].list) (hr : ∀ i : SlotIx, t.record i = s.record i) :
    t.chainState c = s.chainState c := by
  simp only [State.chainState, State.head, hl, hr]

theorem SameStore.chainState (k : SameStore s t) (c : ChainIx) : t.chainState c = s.chainState c :=
  chainState_congr (k.list c) k.record

/-- A BUSY or a READY chain has a head in that state (R22). -/
theorem chainState_head {x : RecordState} {y : ChainState} (hxy : (x = .active ∧ y = .busy) ∨ (x = .queued ∧ y = .ready)) :
    s.chainState c = y ↔ ∃ (i : SlotIx) (r : Record), s.head c = some (i, r) ∧ r.state = x := by
  unfold State.chainState
  cases hh : s.head c with
  | none => obtain ⟨rfl, rfl⟩ | ⟨rfl, rfl⟩ := hxy <;> simp
  | some v =>
    obtain ⟨i, r⟩ := v
    obtain ⟨rfl, rfl⟩ | ⟨rfl, rfl⟩ := hxy <;> cases hs : r.state <;> simp [hs]

theorem chainState_busy : s.chainState c = .busy ↔ ∃ (i : SlotIx) (r : Record), s.head c = some (i, r) ∧ r.state = .active :=
  chainState_head (.inl ⟨rfl, rfl⟩)

theorem chainState_ready : s.chainState c = .ready ↔ ∃ (i : SlotIx) (r : Record), s.head c = some (i, r) ∧ r.state = .queued :=
  chainState_head (.inr ⟨rfl, rfl⟩)

/-- A chain stays BUSY when a slot that is not ACTIVE leaves its lists. -/
theorem busy_leaves {i : SlotIx} {x : Option Record} (k : Leaves i x s t) (hi : ∀ r, s.record i = some r → r.state ≠ .active)
    (h : s.chainState c = .busy) : t.chainState c = .busy := by
  obtain ⟨j, r, hh, hs⟩ := chainState_busy.mp h
  obtain ⟨rest, hl⟩ := head_list hh
  have hr := (head_slot s hh).2
  have hne : j ≠ i := by rintro rfl; exact hi r hr hs
  refine chainState_busy.mpr ⟨j, r, head_eq_some_of_cons (rest := rest.filter (· != i)) ?_ ?_, hs⟩
  · rw [k.list, hl, List.filter_cons, if_pos (by simpa using hne)]
  · rw [k.record, if_neg hne, hr]

/-- A chain stays BUSY when a record is rewritten that is not ACTIVE, or stays so. -/
theorem busy_writes {i : SlotIx} {r' : Record} (k : Writes i r' s t)
    (hi : ∀ r, s.record i = some r → r.state = .active → r'.state = .active) (h : s.chainState c = .busy) : t.chainState c = .busy := by
  obtain ⟨j, r, hh, hs⟩ := chainState_busy.mp h
  obtain ⟨rest, hl⟩ := head_list hh
  have hr := (head_slot s hh).2
  by_cases e : j = i
  · subst e
    exact chainState_busy.mpr
      ⟨j, r', head_eq_some_of_cons ((k.list c).trans hl) (by rw [k.record, if_pos rfl]), hi r hr hs⟩
  · exact chainState_busy.mpr ⟨j, r, head_eq_some_of_cons ((k.list c).trans hl) (by rw [k.record, if_neg e, hr]), hs⟩

/-- A record rewritten in the state it had changes no chain's state. -/
theorem chainState_writes {i : SlotIx} {r r' : Record} (k : Writes i r' s t) (hr : s.record i = some r) (hs : r'.state = r.state) :
    t.chainState c = s.chainState c := by
  unfold State.chainState State.head
  rw [k.list]
  cases s.chains[c].list with
  | nil => rfl
  | cons j rest =>
    dsimp only
    rw [k.record]
    by_cases e : j = i
    · rw [if_pos e, e, hr]
      simp only [Option.map_some, hs]
    · rw [if_neg e]

/-! ### What keeps the gates -/

theorem State.GatesOpen.keep (h : s.GatesOpen) (k : SameBus s t)
    (hb : ∀ c : ChainIx, s.chainState c = .busy → t.chainState c = .busy) : t.GatesOpen := by
  refine ⟨?_, ?_, fun g hg => ?_⟩
  · rw [k.line, k.exchange]; exact h.fault_idle
  · rw [k.expired, k.grant]; exact h.expired_ungranted
  · rw [k.grant] at hg
    obtain ⟨hs, hbusy⟩ := h.grant_busy g hg
    exact ⟨k.sched.trans hs, hb _ hbusy⟩

/-- What both obligations ask for, at the end of an event that began with the bus in use. -/
def KeepsBus (s t : State) : Prop := t.GatesSound ∧ (s.BusUsed → t.BusUsed)

theorem eligible_ready (h : s.eligible c = true) : s.chainState c = .ready := ((eligible_iff s c).mp h).1

/-- A change that the gates do not read, with chains that stay BUSY and become neither READY nor released from HOLD. -/
theorem State.GatesSound.kept (h : s.GatesSound) (k : SameBus s t)
    (hb : ∀ c : ChainIx, s.chainState c = .busy → t.chainState c = .busy)
    (hr : ∀ c : ChainIx, t.chainState c = .ready → s.chainState c = .ready)
    (hh : ∀ c : ChainIx, t.chains[c].hold = false → s.chains[c].hold = false) : KeepsBus s t := by
  obtain ⟨ho, hw, hp⟩ := gatesSound_iff.mp h
  refine ⟨gatesSound_iff.mpr ⟨ho.keep k hb, k.waits hw, k.pollsOn hp⟩, fun hu hm => ?_⟩
  rw [k.mayOffer] at hm
  obtain ⟨hphase, hnone⟩ := hu hm
  refine ⟨k.phase.trans hphase, fun c => Bool.eq_false_iff.mpr fun he => ?_⟩
  obtain ⟨h1, h2, h3, h4⟩ := (eligible_iff t c).mp he
  have : s.eligible c = true := (eligible_iff s c).mpr ⟨hr c h1, hh c h2, k.sched ▸ h3, k.line ▸ h4⟩
  rw [hnone c] at this
  cases this

theorem State.GatesSound.same (h : s.GatesSound) (k : SameBus s t) (hst : ∀ c : ChainIx, t.chainState c = s.chainState c)
    (hh : ∀ c : ChainIx, t.chains[c].hold = s.chains[c].hold) : KeepsBus s t :=
  h.kept k (fun c hc => (hst c).trans hc) (fun c hc => (hst c).symm.trans hc) (fun c hc => (hh c).symm.trans hc)

/-- A change of nothing that the gates read. -/
theorem State.GatesSound.fields (h : s.GatesSound) (k : SameBus s t) (hs : t.slots = s.slots) (hc : t.chains = s.chains) :
    KeepsBus s t :=
  h.same k (fun c => chainState_congr (by rw [hc]) fun i => by rw [State.record, hs]; rfl) fun c => by rw [hc]

/-! ### Tries -/

/-- The start of a try under a grant of its own chain leaves that chain BUSY, or no grant (R26, R31, R33). -/
theorem gatesOpen_tryStart (hrun : s.sched = .running) (hok : s.line = .ok) (hx : s.expired = false)
    (hg : ∀ g : Grant, s.grant = some g → g.chain = c) : (tryStart c s).GatesOpen := by
  have hline : (tryStart c s).line = .fault → (tryStart c s).exchange = none := fun hf => by
    rw [(try_tryStart s c).line, hok] at hf; cases hf
  by_cases hn : (tryStart c s).grant = none
  · exact gatesOpen_of_ungranted hline hn
  · have hexp : (tryStart c s).expired = true → (tryStart c s).grant = none := fun he => by
      rw [(try_tryStart s c).expired, hx] at he; cases he
    refine ⟨hline, hexp, fun g hgt => ?_⟩
    unfold tryStart at hgt hn ⊢
    split at hgt
    · cases hgt
    · next i r hh =>
      split at hgt
      · cases hgt
      · split at hgt
        · cases hgt
        · next h1 h2 =>
          rw [if_neg h1, if_neg h2]
          refine ⟨hrun, chainState_busy.mpr ⟨i, { r with state := .active }, ?_, rfl⟩⟩
          rw [hg g hgt]
          obtain ⟨rest, hl⟩ := head_list hh
          exact head_eq_some_of_cons (rest := rest) hl ((record_putRecord s i i _).trans (if_pos rfl))

/-- A try's start leaves RUNNING, or faults the store (R26, R158). -/
theorem tryStart_sched : (tryStart c s).sched = s.sched ∨ (tryStart c s).sched = .faulted := by
  unfold tryStart
  split
  · exact .inl rfl
  · split
    · exact .inr rfl
    · split
      · exact .inl (haltHead_sched s c _ _ _)
      · exact .inl rfl

/-- The grant of a chain's ACTIVE record is of the chain that the record is in (R31). -/
theorem grant_chain {g : Grant} {i : SlotIx} {n : Byte} {r : Record} (h : s.GatesOpen) (hl : s.ListsAt (some (.record i n)))
    (hg : s.grant = some g) (hr : s.record i = some r) : r.state = .active ∧ g.chain = r.home := by
  obtain ⟨j, q, hh, hq⟩ := chainState_busy.mp (h.grant_busy g hg).2
  have hqr := (head_slot s hh).2
  have hj := hl.2 j q hqr (.inl hq)
  cases hj
  cases hr.symm.trans hqr
  exact ⟨hq, (hl.1.head_chain hh).2.2.symm⟩

theorem gatesOpen_burstContinue {u : State} (k : StoreFrame s u) (hx : s.exchange = none)
    (hg : ∀ g : Grant, s.grant = some g → g.chain = c) : (burstContinue c u).GatesOpen := by
  have hidle : u.line = .fault → u.exchange = none := fun _ => k.exchange.trans hx
  unfold burstContinue
  split
  · next g hgu =>
    have hgc : g.chain = c := hg g (k.grant.symm.trans hgu)
    rw [if_pos hgc]
    split
    · next hm =>
      simp only [State.mayContinue, Bool.and_eq_true, beq_iff_eq, Bool.not_eq_true'] at hm
      obtain ⟨⟨⟨-, hexp⟩, hrun⟩, hok⟩ := hm
      exact gatesOpen_tryStart hrun hok hexp fun g' hg' => by cases hg'; rfl
    · exact gatesOpen_of_ungranted hidle rfl
  · next hn => exact gatesOpen_of_ungranted hidle hn

theorem gatesOpen_endGrant (hx : s.exchange = none) : (endGrant s).GatesOpen := gatesOpen_of_ungranted (fun _ => hx) rfl

theorem gatesOpen_tryResult {i : SlotIx} {n : Byte} {r : Record} (h : s.GatesOpen) (hl : s.ListsAt (some (.record i n)))
    (hr : s.record i = some r) (hx : s.exchange = none) (k : TryResult i r s t) : t.GatesOpen := by
  cases k with
  | @completes r' o res he =>
    obtain ⟨e, rfl⟩ := he
    obtain ⟨ho, hc, -⟩ := afterTry_place r e
    refine gatesOpen_burstContinue ((store_leaveCompleted s i _ _).trans (store_skipGroup _ _ _)) hx fun g hg => ?_
    rw [(grant_chain h hl hg hr).2]
    exact (home_congr ho hc).symm
  | cancelled => exact gatesOpen_endGrant ((store_retire s i _ _).exchange.trans hx)
  | requeued => exact gatesOpen_endGrant hx
  | halted => exact gatesOpen_endGrant ((store_haltHead s _ i _ _).exchange.trans hx)
  | spent =>
    unfold spendBudget
    split
    · exact gatesOpen_endGrant hx
    · dsimp only
      split
      · exact gatesOpen_endGrant ((store_haltHead s _ i _ _).exchange.trans hx)
      · exact gatesOpen_endGrant hx

theorem gatesOpen_recordOutcome {e : Exchange} {i : SlotIx} {n : Byte} (h : s.GatesOpen) (hl : s.ListsAt (some (.record i n)))
    (hx : s.exchange = none) {o : Outcome} (ho : o = .done → s.line ≠ .fault) (words : List Word) :
    (recordOutcome e i n o words s).GatesOpen := by
  generalize ht : recordOutcome e i n o words s = t
  cases ht ▸ recordOutcome_result e i n o words s with
  | nothing => exact h
  | @freed r hr hs =>
    have hc : ¬ r.inChain := fun hc => by simp [Record.inChain, hs] at hc
    refine h.keep (.ofStore (store_freeSlot s i)) fun c =>
      busy_leaves (leaves_free_unlisted hl.1 hr hc (by simp [hs])) fun q hq => ?_
    cases hr.symm.trans hq
    simp [hs]
  | tried hr _ _ hres => exact gatesOpen_tryResult h hl hr hx hres
  | writes _ _ _ _ _ hdone => exact ⟨fun hf => absurd hf (ho hdone), h.expired_ungranted, h.grant_busy⟩

/-! ### The offer of the bus -/

theorem phase_chain (h : s.phase ≠ .poll) : s.phase = .chain := by
  cases e : s.phase
  · exact absurd e h
  · rfl

theorem offerChains_phase (n : Nat) (h : s.phase = .chain) : (offerChains n s).phase = .chain :=
  offerChains_keeps (I := fun s => s.phase = .chain) (fun s c _ _ h => (tryStart_phase.trans (grantTo_phase s c)).trans h) n h

/-- With more rounds than eligible chains, a bus that is still free has no chain to be offered to (R90). -/
theorem offerChains_used (n : Nat) (hn : s.eligibleCount < n) (hm : (offerChains n s).mayOffer = true) (c : ChainIx) :
    (offerChains n s).eligible c = false := by
  induction n generalizing s with
  | zero => cases hn
  | succ n ih =>
    unfold offerChains at hm ⊢
    split at hm
    · next hs =>
      rw [if_pos hs]
      split at hm
      · next hc => exact choice_eq_none_iff.mp hc c
      · next d hc =>
        cases hf : (tryStart d (grantTo d s)).mayOffer
        · rw [offerChains_busy _ n hf, hf] at hm; cases hm
        · exact ih ((eligibleCount_lt s (choice_eligible s hc) hf).trans_le (Nat.lt_succ_iff.mp hn)) hm
    · next hs => exact absurd hm hs

theorem busUsed_of_not_mayOffer (h : s.mayOffer = false) : s.BusUsed := fun hm => by rw [h] at hm; cases hm

theorem offerChains_settles (h : s.phase = .chain) : (offerChains 17 s).PollsOn ∧ (offerChains 17 s).BusUsed := by
  have hp := offerChains_phase 17 h
  exact ⟨fun hpoll => (by rw [hp] at hpoll; cases hpoll),
    fun hm => ⟨hp, offerChains_used 17 (Nat.lt_succ_iff.mpr eligibleCount_le) hm⟩⟩

/-- The first poll of a pending list of entries in use starts (R87). -/
theorem startPoll_starts (hp : s.PlanSound) (hl : s.pollsLeft) : (startPoll s).exchange ≠ none := by
  obtain ⟨-, hne, -⟩ := hl
  unfold startPoll
  split
  · next hn => exact absurd hn hne
  · next i rest hl =>
    obtain ⟨b, hb, -⟩ := hp.pending_active i (by rw [hl]; exact .head _)
    rw [hb]
    exact Option.some_ne_none _

theorem mayOffer_of_exchange (h : s.exchange ≠ none) : s.mayOffer = false :=
  Bool.eq_false_iff.mpr fun hm => h (mayOffer_idle hm)

theorem phaseTest_pollsOn : (phaseTest s).PollsOn := fun hp hx => by
  have hx' : s.exchange = none := by
    unfold phaseTest at hx
    split at hx <;> exact hx
  exact (phaseTest_pollsLeft hx' hp).2

theorem plan_phaseTest (h : s.PlanSound) : (phaseTest s).PlanSound := phaseTest_keeps (fun _ h => h.congr rfl rfl rfl) h

/-- An offer of the bus leaves polls on, and the bus in use (R86 to R90). -/
theorem offerBus_settles (h : s.PlanSound) : (offerBus s).PollsOn ∧ (offerBus s).BusUsed := by
  rw [offerBus_eq]
  split
  · next hm =>
    split
    · have hplan := plan_phaseTest (plan_skipSilent (plan_phaseTest h))
      unfold offerPolls
      split
      · next hp =>
        have hm' : (skipSilent (phaseTest s)).mayOffer = true := by rw [skipSilent_mayOffer, phaseTest_mayOffer, hm]
        have hx := startPoll_starts hplan (phaseTest_pollsLeft (mayOffer_idle hm') hp)
        exact ⟨fun _ hn => absurd hn hx, busUsed_of_not_mayOffer (mayOffer_of_exchange hx)⟩
      · next hp => exact offerChains_settles (phase_chain hp)
    · next hp => exact offerChains_settles (phase_chain hp)
  · next hm => exact ⟨phaseTest_pollsOn, busUsed_of_not_mayOffer (by rw [phaseTest_mayOffer]; simpa using hm)⟩

/-- The gates are open and nothing waits for an exchange that is over: the bus can be offered. -/
structure State.OfferReady (s : State) : Prop where
  gates : s.GatesOpen
  waits : s.Waits
  plan : s.PlanSound

theorem gatesOpen_startPoll (hm : s.mayOffer = true) : (startPoll s).GatesOpen ∧ (startPoll s).Waits := by
  obtain ⟨hx, hg, hexp, hrun, hok⟩ := mayOffer_iff.mp hm
  have hall : ∀ t : State, t.grant = s.grant → t.expired = s.expired → t.sched = s.sched → t.line = s.line → t.GatesOpen ∧ t.Waits := by
    intro t h1 h2 h3 h4
    refine ⟨gatesOpen_of_ungranted (fun hf => ?_) (h1.trans hg), fun he => ?_, fun hd => ?_⟩
    · rw [h4, hok] at hf; cases hf
    · rw [h2, hexp] at he; cases he
    · rw [h3, hrun] at hd; cases hd
  unfold startPoll
  split
  · exact hall _ rfl rfl rfl rfl
  · split <;> exact hall _ rfl rfl rfl rfl

theorem gatesOpen_grant_tryStart (hm : s.mayOffer = true) (c : ChainIx) :
    (tryStart c (grantTo c s)).GatesOpen ∧ (tryStart c (grantTo c s)).Waits := by
  obtain ⟨hx, hg, hexp, hrun, hok⟩ := mayOffer_iff.mp hm
  have hexp' : (grantTo c s).expired = false := (grantTo_expired s c).trans hexp
  have hrun' : (grantTo c s).sched = .running := (grantTo_sched s c).trans hrun
  refine ⟨gatesOpen_tryStart hrun' ((grantTo_line s c).trans hok) hexp' fun g h => ?_, fun he => ?_, fun hd => ?_⟩
  · rw [grantTo_frame] at h
    cases h
    rfl
  · rw [(try_tryStart _ c).expired, hexp'] at he; cases he
  · obtain e | e := tryStart_sched (s := grantTo c s) (c := c)
    · rw [e, hrun'] at hd; cases hd
    · rw [e] at hd; cases hd

/-- An offer of the bus settles the gates and uses the bus. -/
theorem gates_offerBus (h : s.OfferReady) : (offerBus s).GatesSound ∧ (offerBus s).BusUsed := by
  obtain ⟨hp, hu⟩ := offerBus_settles h.plan
  have hopen : (offerBus s).GatesOpen ∧ (offerBus s).Waits := by
    refine offerBus_keeps (I := fun s => s.GatesOpen ∧ s.Waits) ?_ ?_ ?_ ?_ ⟨h.gates, h.waits⟩
    · exact fun s ⟨h, hw⟩ => ⟨⟨h.fault_idle, h.expired_ungranted, h.grant_busy⟩, hw⟩
    · exact fun s ⟨h, hw⟩ => ⟨⟨h.fault_idle, h.expired_ungranted, h.grant_busy⟩, hw⟩
    · exact fun s hm _ _ => gatesOpen_startPoll hm
    · exact fun s c hm _ _ => gatesOpen_grant_tryStart hm c
  exact ⟨gatesSound_iff.mpr ⟨hopen.1, hopen.2, hp⟩, hu⟩

theorem keeps_offerBus (h : t.OfferReady) : KeepsBus s (offerBus t) := ⟨(gates_offerBus h).1, fun _ => (gates_offerBus h).2⟩

/-- A change that the gates do not read, with chains that stay BUSY, leaves the bus ready for its offer. -/
theorem State.GatesSound.ready (h : s.GatesSound) (k : SameBus s t)
    (hb : ∀ c : ChainIx, s.chainState c = .busy → t.chainState c = .busy) (hp : t.PlanSound) : t.OfferReady := by
  obtain ⟨ho, hw, -⟩ := gatesSound_iff.mp h
  exact ⟨ho.keep k hb, k.waits hw, hp⟩

/-! ### Turnovers and ends of exchanges -/

/-- The bus at a turnover: the engine is idle, no grant is held, and nothing waits (R82). -/
structure State.Calm (s : State) : Prop where
  exchange : s.exchange = none
  grant : s.grant = none
  sched : s.sched ≠ .draining
  expired : s.expired = false

theorem State.Calm.congr (h : s.Calm) (hx : t.exchange = s.exchange) (hg : t.grant = s.grant) (hd : t.sched = s.sched)
    (he : t.expired = s.expired) : t.Calm := ⟨hx.trans h.exchange, hg.trans h.grant, hd ▸ h.sched, he.trans h.expired⟩

theorem State.Calm.store (h : s.Calm) (k : StoreFrame s t) : t.Calm := h.congr k.exchange k.grant k.sched k.expired

theorem State.Calm.ready (h : s.Calm) (hp : s.PlanSound) : s.OfferReady where
  gates := gatesOpen_of_ungranted (fun _ => h.exchange) h.grant
  waits := ⟨fun he => (by rw [h.expired] at he; cases he), fun hd => absurd hd h.sched⟩
  plan := hp

theorem calm_lowerLease (h : s.Calm) (e : ResvIx) : (lowerLease s e).Calm := by
  unfold lowerLease
  split
  · exact h
  · split
    · have h' : (setResv e none s).Calm := h.congr rfl rfl rfl rfl
      exact h'.store (store_raise _ _ _)
    · exact h.congr rfl rfl rfl rfl

/-- A lapse changes no setting (R150). -/
theorem calm_lowerWindow (h : s.Calm) : (lowerWindow s).Calm := by
  unfold lowerWindow
  split
  · exact h
  · dsimp only
    split <;> exact h.congr rfl rfl rfl rfl

theorem gates_turnoverEvent (hx : s.exchange = none) (hg : s.grant = none) (hd : s.sched ≠ .draining) (hp : s.PlanSound) (m : Marks) :
    (turnoverEvent m s).GatesSound ∧ (turnoverEvent m s).BusUsed := by
  refine gates_offerBus (State.Calm.ready ?_ (plan_turnoverReactions hp hx m))
  change (turnoverReactions m (advanceSweep { s with expired := false })).Calm
  refine turnoverReactions_keeps (I := State.Calm) ?_ ?_ ?_ ?_ ?_ ?_ ⟨hx, hg, hd, rfl⟩
  · exact fun s h => ⟨h.exchange, h.grant, h.sched, rfl⟩
  · exact fun s h => h.congr rfl rfl rfl rfl
  · exact fun s h => h.congr (pollTurnover_exchange s) (pollTurnover_grant s) (pollTurnover_sched s) (pollTurnover_expired s)
  · exact fun s c h => h.store (store_checkDeadline s c)
  · exact fun s e h => calm_lowerLease h e
  · exact fun s h => calm_lowerWindow h

theorem drained_sched : (drained s).sched = .draining → (drained s).exchange ≠ none := by
  unfold drained
  split
  · intro h; cases h
  · next hn =>
    intro hd hx
    exact hn ⟨hd, by rw [State.idle, hx]; rfl⟩

theorem gatesOpen_drained (h : s.GatesOpen) : (drained s).GatesOpen := by
  unfold drained
  split
  · next hd =>
    refine ⟨h.fault_idle, h.expired_ungranted, fun g hg => ?_⟩
    have := (h.grant_busy g hg).1
    rw [hd.1] at this
    cases this
  · exact h

/-- After the end of an exchange the bus is settled by the turnover that waited, or by an offer (R54, R82). -/
theorem gates_afterExchange (h : s.GatesOpen) (hp : s.PlanSound) (m : Marks) :
    (afterExchange m s).GatesSound ∧ (afterExchange m s).BusUsed := by
  have hopen := gatesOpen_drained h
  have hplan := plan_drained hp
  unfold afterExchange
  dsimp only
  split
  · next hc =>
    obtain ⟨hexp, hidle⟩ := Bool.and_eq_true_iff.mp hc
    have hx : (drained s).exchange = none := by simpa [State.idle] using hidle
    exact gates_turnoverEvent hx (hopen.expired_ungranted hexp) (fun hd => drained_sched hd hx) hplan m
  · next hc =>
    refine gates_offerBus ⟨?_, ⟨fun he hx => hc ?_, drained_sched⟩, hplan.congr rfl rfl rfl⟩
    · exact hopen.keep ⟨.rfl, rfl, rfl, rfl, rfl, rfl, rfl, rfl, rfl⟩ fun c hc => hc
    · have he' : (drained s).expired = true := he
      have hx' : (drained s).exchange = none := hx
      rw [he', State.idle, hx']
      rfl

theorem sameBus_updateTarget (e : Exchange) (o : Outcome) : SameBus s (updateTarget e o s) := by
  unfold updateTarget
  split
  · constructor <;> rfl
  · split
    · constructor <;> rfl
    · dsimp only
      split <;> constructor <;> rfl

theorem gatesOpen_pollOutcome (h : s.GatesOpen) (i : PollIx) (edit : Byte) (o : Outcome) (words : List Word) :
    (pollOutcome i edit o words s).GatesOpen := by
  have hsame := (same_pollOutcome (s := s) i edit o words).1
  have key : (pollOutcome i edit o words s).line = s.line ∧ (pollOutcome i edit o words s).expired = s.expired ∧
      (pollOutcome i edit o words s).grant = s.grant ∧ (pollOutcome i edit o words s).sched = s.sched := by
    unfold pollOutcome
    split
    · exact ⟨rfl, rfl, rfl, rfl⟩
    · split
      · exact ⟨rfl, rfl, rfl, rfl⟩
      · split
        · split <;> exact ⟨rfl, rfl, rfl, rfl⟩
        · dsimp only
          split
          · split
            · have k := fun u : State => store_mark u .stale
              exact ⟨(k _ _).line, (k _ _).expired, (k _ _).grant, (k _ _).sched⟩
            · exact ⟨rfl, rfl, rfl, rfl⟩
          · exact ⟨rfl, rfl, rfl, rfl⟩
  obtain ⟨hl, he, hg, hs⟩ := key
  refine ⟨fun hf => ?_, fun hf => ?_, fun g hgg => ?_⟩
  · rw [(same_pollOutcome (s := s) i edit o words).2]; exact h.fault_idle (hl ▸ hf)
  · rw [hg]; exact h.expired_ungranted (he ▸ hf)
  · obtain ⟨h1, h2⟩ := h.grant_busy g (hg ▸ hgg)
    exact ⟨hs.trans h1, (hsame.chainState _).trans h2⟩

theorem gatesOpen_handOff {e : Exchange} (h : s.GatesOpen) (hl : s.ListsAt (some e.origin)) (hx : s.exchange = none) {o : Outcome}
    (ho : o = .done → s.line ≠ .fault) (words : List Word) : (handOff e o words s).GatesOpen := by
  unfold handOff
  split
  · next i n he => exact gatesOpen_recordOutcome h (he ▸ hl) hx ho words
  · exact gatesOpen_pollOutcome h _ _ o words

/-- The end of an exchange, in a state whose gates would be open with the engine idle. -/
theorem gates_endExchange {e : Exchange} (hl : s.ListsAt (some e.origin)) (hp : s.PlanSound)
    (h : ({ s with exchange := none } : State).GatesOpen) {o : Outcome} (ho : o = .done → s.line ≠ .fault) (words : List Word) :
    (endExchange e o words s).GatesSound ∧ (endExchange e o words s).BusUsed := by
  have hclear : ({ clearMarks s with exchange := none } : State).ListsAt (some e.origin) :=
    hl.congr (same_clearMarks.trans (.ofFields rfl rfl rfl))
  have hopen : ({ clearMarks s with exchange := none } : State).GatesOpen :=
    h.keep ⟨.rfl, rfl, rfl, rfl, rfl, rfl, rfl, rfl, rfl⟩ fun _ hc => hc
  have hplan := plan_updateTarget (plan_noExchange hp) e o
  have hopen' := hopen.keep (sameBus_updateTarget e o) fun c hc => ((same_updateTarget e o).chainState c).trans hc
  have hline : o = .done → (updateTarget e o { clearMarks s with exchange := none }).line ≠ .fault := fun hd => by
    rw [(sameBus_updateTarget e o).line]; exact ho hd
  unfold endExchange
  refine gates_afterExchange ?_ (plan_handOff hplan (updateTarget_exchange e o) e o words) _
  exact gatesOpen_handOff hopen' (hclear.congr (same_updateTarget e o)) (updateTarget_exchange e o) hline words

/-! ### Decisions and session ends -/

theorem busy_disposeDamaged {o : Option Origin} (h : s.ListsAt o) (i : SlotIx) (hb : s.chainState c = .busy) :
    (disposeDamaged s i).chainState c = .busy := by
  unfold disposeDamaged
  split
  · exact hb
  · next r hr =>
    split
    · next hs =>
      have hc : ¬ r.inChain := fun hc => by simp [Record.inChain, hs] at hc
      have hne : ∀ q, s.record i = some q → q.state ≠ .active := fun q hq => by cases hr.symm.trans hq; simp [hs]
      have hfree := busy_leaves (leaves_free_unlisted h.1 hr hc (by simp [hs])) hne hb
      split
      · split
        · exact busy_leaves (leaves_retire i r _) hne hb
        · exact hfree
      · exact hfree
    · exact hb

/-- An adopted change keeps the gates, and what waits (R146). -/
theorem gatesOpen_applyChange {o : Option Origin} (h : s.GatesOpen) (hw : s.Waits) (hl : s.ListsAt o) (ch : Change) :
    (applyChange ch s).GatesOpen ∧ (applyChange ch s).Waits := by
  have run : ∀ t : State, StoreFrame s t → (∀ c, s.chainState c = .busy → t.chainState c = .busy) →
      ({ t with sched := .running } : State).GatesOpen ∧ ({ t with sched := .running } : State).Waits := fun t k hb => by
    have ht := h.keep (.ofStore k) hb
    exact ⟨⟨ht.fault_idle, ht.expired_ungranted, fun g hg => ⟨rfl, (ht.grant_busy g hg).2⟩⟩,
      fun he => ((SameBus.ofStore k).waits hw).1 he, fun hd => by cases hd⟩
  cases ch with
  | sweepLength | pollWindow | quotas | fieldRate => exact ⟨⟨h.fault_idle, h.expired_ungranted, h.grant_busy⟩, hw⟩
  | start => exact run s (.refl s) fun _ hc => hc
  | stop =>
    refine ⟨gatesOpen_of_ungranted h.fault_idle rfl, hw.1, fun hd => ?_⟩
    simp only [applyChange] at hd
    split at hd
    · next hx => exact Option.isSome_iff_ne_none.mp hx
    · cases hd
  | restart =>
    have hall := foldl_keeps (I := fun t => t.ListsAt o ∧ ∀ c, s.chainState c = .busy → t.chainState c = .busy)
      (fun t i ⟨hl, hb⟩ => ⟨lists_disposeDamaged hl i, fun c hc => busy_disposeDamaged hl i (hb c hc)⟩)
      (List.finRange 128) ⟨hl, fun _ hc => hc⟩
    have k := StoreFrame.foldl store_disposeDamaged (List.finRange 128) s
    rw [applyChange_restart]
    generalize (List.finRange 128).foldl disposeDamaged s = u at hall k
    exact run u k hall.2

theorem gatesOpen_decide {o : Option Origin} (h : s.GatesOpen) (hw : s.Waits) (hl : s.ListsAt o) (pr : Proposal) (v : Verdict) :
    (decideProposal pr v s).GatesOpen ∧ (decideProposal pr v s).Waits := by
  have happlied : (if v = .adopted then applyChange pr.change s else s).GatesOpen ∧
      (if v = .adopted then applyChange pr.change s else s).Waits := by
    split
    · exact gatesOpen_applyChange h hw hl _
    · exact ⟨h, hw⟩
  obtain ⟨h1, h2⟩ := happlied
  exact ⟨⟨h1.fault_idle, h1.expired_ungranted, h1.grant_busy⟩, h2⟩

theorem gatesOpen_leaveProposal {o : Option Origin} (h : s.GatesOpen) (hw : s.Waits) (hl : s.ListsAt o) (p : Port) :
    (leaveProposal p s).GatesOpen ∧ (leaveProposal p s).Waits := by
  unfold leaveProposal
  split
  · exact ⟨h, hw⟩
  · split
    · exact ⟨h, hw⟩
    · dsimp only
      split_ifs
      · exact gatesOpen_decide h hw hl _ _
      · exact gatesOpen_decide h hw hl _ _
      · exact ⟨⟨h.fault_idle, h.expired_ungranted, h.grant_busy⟩, hw⟩

/-- A grant that a session end leaves is of another port's chain, whose head stays ACTIVE (R17, R42). -/
theorem gatesOpen_leaveBlocks (h : s.GatesOpen) (hl : s.StoreSound) (p : Port) : (leaveBlocks p s).GatesOpen := by
  refine ⟨h.fault_idle, fun he => ?_, fun g hg => ?_⟩
  · have : s.grant = none := h.expired_ungranted he
    simp only [leaveBlocks, this, Option.filter_none]
  · obtain ⟨hg, hne⟩ := Option.filter_eq_some_iff.mp (show s.grant.filter _ = some g from hg)
    have hne : chainPort g.chain ≠ p := by simpa using hne
    obtain ⟨hrun, hbusy⟩ := h.grant_busy g hg
    obtain ⟨i, r, hh, hs⟩ := chainState_busy.mp hbusy
    obtain ⟨rest, hlist⟩ := head_list hh
    obtain ⟨-, ho, -⟩ := hl.head_chain hh
    have hr := (head_slot s hh).2
    refine ⟨hrun, chainState_busy.mpr ⟨i, r, head_eq_some_of_cons (rest := rest) ?_ ?_, hs⟩⟩
    · rw [chain_leaveBlocks, if_neg hne, hlist]
    · rw [State.record, record_leaveBlocks, sessionEnd_kept hr (.inl (by rw [ho]; simpa using hne))]
      exact hr

/-! ### The events -/

theorem retireAll_record (k : EndKind) {l : List SlotIx} {j : SlotIx} (hj : j ∉ l) : (retireAll k l s).record j = s.record j := by
  induction l generalizing s with
  | nil => rfl
  | cons i l ih =>
    obtain ⟨hne, hj⟩ := not_or.mp (mt List.mem_cons.mpr hj)
    change (retireAll k l (retireSlot i k s)).record j = s.record j
    rw [ih hj]
    unfold retireSlot
    split
    · rw [record_retire, if_neg hne]
    · rfl

theorem modChain_get {f : Chain → Chain} : (modChain c f s).chains[d] = if d = c then f s.chains[c] else s.chains[d] := by
  simp only [modChain]
  rw [modAt_get]

theorem chainState_modChain {f : Chain → Chain} (hf : ∀ ch, (f ch).list = ch.list) :
    (modChain c f s).chainState d = s.chainState d := chainState_congr (modChain_list hf d) fun _ => rfl

theorem hold_unlist (i : SlotIx) (c : ChainIx) : (unlist i s).chains[c].hold = s.chains[c].hold := by
  rw [unlist_chains, tab_get, Chain.remove]
  split <;> rfl

theorem hold_retire (i : SlotIx) (r : Record) (k : EndKind) (c : ChainIx) : (retire i r k s).chains[c].hold = s.chains[c].hold := by
  unfold retire
  dsimp only
  split
  · rw [enqueueNote, mark_chains, putRecord_chains, hold_unlist]
  · rw [putRecord_chains, hold_unlist]

theorem hold_retireAll (k : EndKind) (l : List SlotIx) (c : ChainIx) : (retireAll k l s).chains[c].hold = s.chains[c].hold := by
  refine foldl_keeps (I := fun t => t.chains[c].hold = s.chains[c].hold) (fun t i ht => ?_) l rfl
  unfold retireSlot
  split
  · rw [hold_retire, ht]
  · exact ht

theorem hold_flushChain (c d : ChainIx) : (flushChain c s).2.2.chains[d].hold = s.chains[d].hold := by
  unfold flushChain
  split
  · split
    · rw [hold_retireAll]
      unfold setCancelPending
      split <;> rfl
    · rw [hold_retireAll]
  · rfl

theorem raiseProposal_view (pr : Proposal) : SameStore s (raiseProposal pr s) ∧ (raiseProposal pr s).chains = s.chains := by
  unfold raiseProposal
  refine foldl_keeps (I := fun t => SameStore s t ∧ t.chains = s.chains) (fun t q ⟨h, hc⟩ => ?_) _ ⟨.ofFields rfl rfl rfl, rfl⟩
  split
  · refine ⟨h.trans (same_raise _ _), ?_⟩
    unfold raise
    split <;> exact hc
  · exact ⟨h, hc⟩

/-- What the gates read is the same once a proposal is pending. -/
theorem acceptPropose_view (p : Port) (ch : Change) :
    SameBus s (acceptPropose p ch s) ∧ SameStore s (acceptPropose p ch s) ∧ (acceptPropose p ch s).chains = s.chains := by
  have k : StoreFrame { s with lastNumber := (newProposal p ch s).number, proposal := some (newProposal p ch s) }
      (acceptPropose p ch s) := store_raiseProposal _ _
  obtain ⟨hs, hc⟩ := raiseProposal_view (newProposal p ch s)
    (s := { s with lastNumber := (newProposal p ch s).number, proposal := some (newProposal p ch s) })
  refine ⟨.trans ?_ (.ofStore k), .trans ?_ hs, hc⟩
  · exact ⟨.rfl, rfl, rfl, rfl, rfl, rfl, rfl, rfl, rfl⟩
  · exact .ofFields rfl rfl rfl

/-- Held slots that are retired leave every chain, and the rest keep their order (R28). -/
theorem retireAll_list (k : EndKind) {l : List SlotIx} (hl : ∀ i ∈ l, s.record i ≠ none) (c : ChainIx) :
    (retireAll k l s).chains[c].list = s.chains[c].list.filter fun j => decide (j ∉ l) := by
  induction l generalizing s with
  | nil => simp [retireAll]
  | cons i l ih =>
    obtain ⟨r, hr⟩ := Option.ne_none_iff_exists'.mp (hl i (.head _))
    change (retireAll k l (retireSlot i k s)).chains[c].list = _
    rw [retireSlot_held s k hr, ih fun j hj => ?_, list_retire, List.filter_filter]
    · refine List.filter_congr fun j _ => ?_
      by_cases hj : j ∈ l <;> by_cases e : j = i <;> simp [hj, e]
    · rw [record_retire]
      split
      · simp
      · exact hl j (.tail _ hj)

/-- Retiring slots of one chain leaves the others as they are. -/
theorem chainState_retireAll_ne (h : s.StoreSound) (k : EndKind) {l : List SlotIx} (hl : l ⊆ s.chains[c].list) (hd : d ≠ c) :
    (retireAll k l s).chainState d = s.chainState d := by
  have hheld : ∀ i ∈ l, s.record i ≠ none := fun i hi => by
    obtain ⟨r, hr, -⟩ := h.chain_lists c i (hl hi)
    rw [hr]; simp
  have apart : ∀ j ∈ s.chains[d].list, j ∉ l := fun j hj hjl => by
    obtain ⟨r, hr, -, -, hhome⟩ := h.chain_lists d j hj
    exact hd (hhome.symm.trans (h.member_owner (hl hjl) hr).2.2)
  have hlist : (retireAll k l s).chains[d].list = s.chains[d].list := by
    rw [retireAll_list k hheld, List.filter_eq_self.mpr fun j hj => by simpa using apart j hj]
  unfold State.chainState State.head
  rw [hlist]
  cases hc : s.chains[d].list with
  | nil => rfl
  | cons j rest =>
    dsimp only
    rw [retireAll_record k (apart j (by rw [hc]; exact .head _))]

/-- A flush leaves every other chain, and its own BUSY or EMPTY (R40). -/
theorem chainState_flushChain (h : s.StoreSound) (c d : ChainIx) :
    (flushChain c s).2.2.chainState d = s.chainState d ∨
      ((flushChain c s).2.2.chainState d = .empty ∧ s.chainState d ≠ .busy) := by
  have held : ∀ u : State, u.StoreSound → ∀ l : List SlotIx, l ⊆ u.chains[c].list → ∀ i ∈ l, u.record i ≠ none :=
    fun u hu l hl i hi => by
      obtain ⟨r, hr, -⟩ := hu.chain_lists c i (hl hi)
      rw [hr]; simp
  unfold flushChain
  split
  · next i r hh =>
    obtain ⟨rest, hlist⟩ := head_list hh
    have hr := (head_slot s hh).2
    split
    · next hs =>
      have hset : ∃ q : Record, (setCancelPending i r s).StoreSound ∧ (setCancelPending i r s).record i = some q ∧ q.state = .active ∧
          (∀ c : ChainIx, (setCancelPending i r s).chains[c].list = s.chains[c].list) ∧
          ∀ c : ChainIx, (setCancelPending i r s).chainState c = s.chainState c := by
        unfold setCancelPending
        split
        · exact ⟨r, h, hr, hs, fun _ => rfl, fun _ => rfl⟩
        · have k : Writes i { r with cancelPending := true } s (putRecord i { r with cancelPending := true } s) := writes_putRecord i _
          exact ⟨{ r with cancelPending := true }, store_writes h k hr rfl rfl (.inl rfl), by rw [k.record, if_pos rfl], hs, k.list,
            fun c => chainState_writes k hr rfl⟩
      obtain ⟨q, hu, hq, hqs, hul, hus⟩ := hset
      generalize setCancelPending i r s = u at hu hq hul hus
      have hsub : s.chains[c].list.tail ⊆ u.chains[c].list := by rw [hul]; exact List.tail_subset _
      refine .inl ?_
      by_cases hd : d = c
      · subst hd
        have hnd := h.chain_once d
        rw [hlist] at hnd
        have hi : i ∉ rest := (List.nodup_cons.mp hnd).1
        have hbusy : s.chainState d = .busy := chainState_eq_busy hh hs
        rw [hbusy]
        rw [hlist, List.tail_cons] at hsub ⊢
        refine chainState_busy.mpr ⟨i, q, head_eq_some_of_cons (rest := []) ?_ ?_, hqs⟩
        · rw [retireAll_list _ (held u hu rest hsub), hul, hlist, List.filter_cons, if_pos (by simpa using hi)]
          simp
        · exact (retireAll_record _ hi).trans hq
      · exact (chainState_retireAll_ne hu _ hsub hd).trans (hus d)
    · next hs =>
      by_cases hd : d = c
      · subst hd
        refine .inr ⟨chainState_eq_empty (head_eq_none_of_nil ?_), fun hb => ?_⟩
        · rw [retireAll_list _ (held s h _ (List.Subset.refl _)), List.filter_eq_nil_iff.mpr (by simp)]
        · obtain ⟨j, q, hj, hq⟩ := chainState_busy.mp hb
          cases hh.symm.trans hj
          exact hs hq
      · exact .inl (chainState_retireAll_ne h _ (List.Subset.refl _) hd)
  · exact .inl rfl

/-- A slot that is in no chain leaves the chains' states as they are. -/
theorem chainState_leaves {i : SlotIx} {x : Option Record} (k : Leaves i x s t) (hi : ∀ c : ChainIx, i ∉ s.chains[c].list) :
    t.chainState c = s.chainState c := by
  have hlist : t.chains[c].list = s.chains[c].list := by rw [k.list, filter_ne_of_notMem (hi c)]
  unfold State.chainState State.head
  rw [hlist]
  cases hc : s.chains[c].list with
  | nil => rfl
  | cons j rest =>
    dsimp only
    rw [k.record, if_neg]
    rintro rfl
    exact hi c (by rw [hc]; exact .head _)

theorem upset_chainState (i : SlotIx) (stored : Record) (c : ChainIx) : (upsetSlot i stored s).chainState c = s.chainState c := by
  unfold upsetSlot
  split
  · next r hr =>
    refine chainState_writes (r := r) (r' := r.upsetTo stored) ⟨fun j => ?_, fun j => ?_, fun _ => rfl, fun _ => rfl⟩ hr rfl
    · simp only [State.record]; rw [modAt_get]; split <;> rfl
    · dsimp only; rw [modAt_get]; split
      · next e => rw [e]
      · rfl
  · rfl

/-- An entry leaves the pending list, and the end of the poll phase is tested (R88). -/
theorem gates_unpend (h : s.GatesSound) (i : PollIx) : KeepsBus s (unpend i s) := by
  obtain ⟨ho, hw, -⟩ := gatesSound_iff.mp h
  have hopen : (unpend i s).GatesOpen ∧ (unpend i s).Waits :=
    phaseTest_keeps (I := fun s => s.GatesOpen ∧ s.Waits)
      (fun s ⟨h, hw⟩ => ⟨⟨h.fault_idle, h.expired_ungranted, h.grant_busy⟩, hw⟩)
      ⟨⟨ho.fault_idle, ho.expired_ungranted, ho.grant_busy⟩, hw⟩
  refine ⟨gatesSound_iff.mpr ⟨hopen.1, hopen.2, phaseTest_pollsOn⟩, fun hu hm => ?_⟩
  have hm' : s.mayOffer = true := (phaseTest_mayOffer (s := { s with pollPending := s.pollPending.filter (· != i) })).symm.trans hm
  obtain ⟨hp, hnone⟩ := hu hm'
  rw [show unpend i s = _ from phaseTest_of_chain (s := { s with pollPending := s.pollPending.filter (· != i) }) hp]
  exact ⟨hp, hnone⟩

theorem gates_event (h : Event s t) (hl : s.ListsSound) (hp : s.PlanSound) (hg : s.GatesSound) : KeepsBus s t := by
  obtain ⟨hopen, hwaits, hpolls⟩ := gatesSound_iff.mp hg
  obtain ⟨hstore, hbus⟩ := listsSound_iff.mp hl
  have ended : ∀ e : Exchange, s.exchange = some e → s.ListsAt (some e.origin) := fun e he => by
    have : s.busOrigin = some e.origin := by rw [State.busOrigin, he]; rfl
    exact this ▸ ⟨hstore, hbus⟩
  cases h with
  | nothing => exact ⟨hg, id⟩
  | powerOn =>
    refine ⟨⟨nofun, nofun, nofun, nofun, nofun⟩, fun _ _ => ⟨rfl, fun c => Bool.eq_false_iff.mpr fun he => ?_⟩⟩
    have hlist : (powerOn s).chains[c].list = [] := congrArg Chain.list (reset_chain c)
    have := eligible_ready he
    rw [chainState_eq_empty (head_eq_none_of_nil hlist)] at this
    cases this
  | attach | claim | renew | release | pollCreate | pollChange | pollResume | pollAdopt | confirm =>
    exact hg.fields ⟨.rfl, rfl, rfl, rfl, rfl, rfl, rfl, rfl, rfl⟩ rfl rfl
  | notify => exact hg.fields ⟨.rfl, rfl, rfl, rfl, rfl, rfl, rfl, rfl, rfl⟩ rfl rfl
  | @pollPause i b hb =>
    have hput := hg.fields (t := modPoll i (fun en => { en with body := some { b with paused := true } }) s)
      ⟨.rfl, rfl, rfl, rfl, rfl, rfl, rfl, rfl, rfl⟩ rfl rfl
    have hun := gates_unpend hput.1 i
    exact ⟨hun.1, hun.2 ∘ hput.2⟩
  | @pollDelete i =>
    have hput := hg.fields (t := modPoll i (fun en => { edit := en.edit + 1, body := none }) s)
      ⟨.rfl, rfl, rfl, rfl, rfl, rfl, rfl, rfl, rfl⟩ rfl rfl
    have hun := gates_unpend hput.1 i
    exact ⟨hun.1, hun.2 ∘ hput.2⟩
  | @sessionEnd p =>
    have hlist : (leaveBlocks p s).ListsAt s.busOrigin := lists_leaveBlocks ⟨hstore, hbus⟩ p
    obtain ⟨h1, h2⟩ := gatesOpen_leaveProposal (gatesOpen_leaveBlocks hopen hstore p) hwaits hlist p
    exact keeps_offerBus ⟨h1, h2, plan_decision (plan_leaveBlocks hp p) (decision_leaveProposal _ p)⟩
  | @post p _ b i _ _ hi =>
    have hplan : (acceptPost p b i s).PlanSound := hp.congr rfl rfl rfl
    refine keeps_offerBus (hg.ready ⟨.rfl, rfl, rfl, rfl, rfl, rfl, rfl, rfl, rfl⟩ (fun c hc => ?_) hplan)
    obtain ⟨j, r, hh, hs⟩ := chainState_busy.mp hc
    obtain ⟨rest, hlist⟩ := head_list hh
    have hr := (head_slot s hh).2
    have hne : j ≠ i := by rintro rfl; rw [hi] at hr; cases hr
    have hlist' : ∃ rest', (acceptPost p b i s).chains[c].list = j :: rest' := by
      rw [acceptPost, appendChain_chains, modAt_get]
      split
      · next e => subst e; exact ⟨rest ++ [i], by rw [putRecord_chains, hlist]; rfl⟩
      · exact ⟨rest, by rw [putRecord_chains, hlist]⟩
    obtain ⟨rest', hlist'⟩ := hlist'
    refine chainState_busy.mpr ⟨j, r, head_eq_some_of_cons hlist' ?_, hs⟩
    exact (record_putRecord s i j _).trans ((if_neg hne).trans hr)
  | @storeFault p l =>
    have k := StoreFrame.foldl (fun s i => store_damageSlot s i) l s
    generalize l.foldl (fun s i => damageSlot i s) s = u at k
    have kb := SameBus.ofStore k
    refine ⟨gatesSound_iff.mpr ⟨gatesOpen_of_ungranted (fun hf => ?_) rfl, ⟨(kb.waits hwaits).1, nofun⟩, kb.pollsOn hpolls⟩,
      fun _ => busUsed_of_not_mayOffer (Bool.eq_false_iff.mpr fun hm => ?_)⟩
    · exact kb.exchange.mpr (hopen.fault_idle (kb.line.symm.trans hf))
    · obtain ⟨-, -, -, hrun, -⟩ := mayOffer_iff.mp hm
      cases hrun
  | @retire p i r k _ hr _ hs =>
    refine keeps_offerBus (hg.ready (.ofStore (store_retire s i r k)) (fun c => busy_leaves (leaves_retire i r k) fun q hq => ?_)
      (plan_store hp (store_retire s i r k)))
    cases hr.symm.trans hq
    obtain e | e := hs <;> simp [e]
  | @cancelActive i r hr hs =>
    refine hg.same (.ofStore (store_setCancelPending s i r)) (fun c => ?_) fun c => ?_ <;> unfold setCancelPending <;> split
    · rfl
    · exact chainState_writes (writes_putRecord i _) hr rfl
    · rfl
    · rfl
  | @flush c =>
    have hst := chainState_flushChain hstore c
    refine hg.kept (.ofStore (store_flushChain s c)) (fun d hd => ?_) (fun d hd => ?_) fun d hd => ?_
    · obtain e | ⟨-, e⟩ := hst d
      · exact e.trans hd
      · exact absurd hd e
    · obtain e | ⟨e, -⟩ := hst d
      · exact e.symm.trans hd
      · rw [e] at hd; cases hd
    · rwa [hold_flushChain] at hd
  | @chainSet c prio burst =>
    have hst : ∀ d, (modChain c (fun ch => { ch with priority := prio, burst := burst }) s).chainState d = s.chainState d :=
      fun d => chainState_modChain fun _ => rfl
    refine hg.same ⟨.rfl, rfl, rfl, rfl, rfl, rfl, rfl, rfl, rfl⟩ hst fun d => ?_
    rw [modChain_get]; split
    · next e => rw [e]
    · rfl
  | @chainPause c =>
    have hst : ∀ d, (modChain c (fun ch => { ch with hold := true }) s).chainState d = s.chainState d :=
      fun d => chainState_modChain fun _ => rfl
    refine hg.kept ⟨.rfl, rfl, rfl, rfl, rfl, rfl, rfl, rfl, rfl⟩ (fun d hd => (hst d).trans hd) (fun d hd => (hst d).symm.trans hd)
      fun d hd => ?_
    rw [modChain_get] at hd
    split at hd
    · cases hd
    · exact hd
  | @chainGo c =>
    have hplan : (modChain c (fun ch => { ch with hold := false }) s).PlanSound := hp.congr rfl rfl rfl
    have hst : ∀ d, (modChain c (fun ch => { ch with hold := false }) s).chainState d = s.chainState d :=
      fun d => chainState_modChain fun _ => rfl
    exact keeps_offerBus (hg.ready ⟨.rfl, rfl, rfl, rfl, rfl, rfl, rfl, rfl, rfl⟩ (fun d hd => (hst d).trans hd) hplan)
  | @chainRetry c i r hh hs =>
    refine keeps_offerBus (hg.ready (.ofStore (store_putRecord s i r.retried))
      (fun d => busy_writes (writes_putRecord i _) fun q hq hqs => ?_) (plan_store hp (store_putRecord s i _)))
    cases (head_slot s hh).2.symm.trans hq
    rw [hs] at hqs
    cases hqs
  | @fetch p i rest hq =>
    have hi : ∀ c : ChainIx, i ∉ s.chains[c].list := fun c hc => by
      obtain ⟨r, hr, hd, -⟩ := hstore.queue_lists p i (by rw [hq]; exact .head _)
      have := (hstore.member_owner hc hr).1
      simp [Record.inChain, hd] at this
    have k := (store_unlist s i).trans (store_freeSlot _ i)
    refine hg.same (.ofStore k) (fun c => chainState_leaves (leaves_free i) hi) fun c => ?_
    rw [freeSlot_chains, hold_unlist]
  | @propose p _ c =>
    obtain ⟨kb, hsame, hc⟩ := acceptPropose_view (s := s) p c
    exact hg.same kb hsame.chainState fun d => by rw [hc]
  | @proposeAlone p _ c =>
    obtain ⟨kb, hsame, -⟩ := acceptPropose_view (s := s) p c
    have hready := hg.ready kb (fun d hd => (hsame.chainState d).trans hd) (plan_acceptPropose hp p c)
    have hlist : (acceptPropose p c s).ListsAt s.busOrigin := State.ListsAt.congr ⟨hstore, hbus⟩ hsame
    obtain ⟨h1, h2⟩ := gatesOpen_decide hready.gates hready.waits hlist (newProposal p c s) ((newProposal p c s).finalVerdict _)
    exact keeps_offerBus ⟨h1, h2, plan_decision hready.plan (decision_decideProposal _ _ _)⟩
  | @consent p pr =>
    obtain ⟨h1, h2⟩ := gatesOpen_decide hopen hwaits ⟨hstore, hbus⟩ (pr.confirmedBy p) ((pr.confirmedBy p).finalVerdict s)
    exact keeps_offerBus ⟨h1, h2, plan_decision hp (decision_decideProposal _ _ _)⟩
  | @decide pr v hv =>
    have e : decideProposal pr v s = raiseAll .decided { s with
        decision := some { number := pr.number, change := pr.change, proposer := pr.proposer, confirmed := pr.confirmed, verdict := v }
        proposal := none } := by
      rw [decideProposal, if_neg hv]
    rw [e]
    exact hg.fields ⟨.rfl, rfl, rfl, rfl, rfl, rfl, rfl, rfl, rfl⟩ rfl rfl
  | overrun hx =>
    refine ⟨gatesSound_iff.mpr ⟨gatesOpen_of_ungranted hopen.fault_idle rfl, ⟨fun _ => hx, hwaits.2⟩, fun _ hn => absurd hn hx⟩,
      fun _ => busUsed_of_not_mayOffer (mayOffer_of_exchange hx)⟩
  | turnover hx =>
    have hplan : (clearMarks s).PlanSound := hp.congr rfl rfl rfl
    have hgrant : s.grant = none := by
      cases hgr : s.grant with
      | none => rfl
      | some g =>
        obtain ⟨i, r, hh, hs⟩ := chainState_busy.mp (hopen.grant_busy g hgr).2
        have := hbus i r (head_slot s hh).2 (.inl hs)
        rw [busOrigin_of_idle hx] at this
        cases this
    have := gates_turnoverEvent (s := clearMarks s) hx hgrant (fun hd => hwaits.2 hd hx) hplan s.marks
    exact ⟨this.1, fun _ => this.2⟩
  | @endExchange e e' o words he hlead =>
    have hline : o = .done → s.line ≠ .fault := fun _ hf => by
      rw [hopen.fault_idle hf] at he
      cases he
    have hend := gates_endExchange (e := e') (o := o) (hlead.origin ▸ ended e he) hp
      ⟨fun _ => rfl, hopen.expired_ungranted, hopen.grant_busy⟩ hline words
    exact ⟨hend.1, fun _ => hend.2⟩
  | lineFault hx =>
    refine ⟨gatesSound_iff.mpr ⟨⟨fun _ => hx, hopen.expired_ungranted, hopen.grant_busy⟩, hwaits, hpolls⟩,
      fun _ => busUsed_of_not_mayOffer (Bool.eq_false_iff.mpr fun hm => ?_)⟩
    obtain ⟨-, -, -, -, hok⟩ := mayOffer_iff.mp hm
    cases hok
  | @lineFaultEnd e he =>
    have hsame : SameStore s (enterLineFault s) := .ofReports rfl rfl (raiseAll_queue (s := { s with line := .fault, run := _, releasedCount := 0 }) .fault)
    have hplan : (enterLineFault s).PlanSound := hp.congr rfl rfl rfl
    have hend := gates_endExchange (e := e) (o := .line) ((ended e he).congr hsame) hplan
      ⟨fun _ => rfl, hopen.expired_ungranted, hopen.grant_busy⟩ nofun []
    exact ⟨hend.1, fun _ => hend.2⟩
  | lineOk =>
    have hplan : ({ s with line := .ok, run := 0, releasedCount := 0 } : State).PlanSound := hp.congr rfl rfl rfl
    exact keeps_offerBus ⟨⟨nofun, hopen.expired_ungranted, hopen.grant_busy⟩, hwaits, hplan⟩
  | upset i stored =>
    refine hg.same ?_ (upset_chainState i stored) fun c => ?_ <;> unfold upsetSlot <;> split
    · constructor <;> rfl
    · constructor <;> rfl
    · rfl
    · rfl

theorem gates_quiet (h : Quiet s t) (hg : s.GatesSound) : KeepsBus s t := by
  have hx : t.exchange = none ↔ s.exchange = none := by
    refine ⟨fun ht => ?_, h.idle⟩
    cases hs : s.exchange with
    | none => rfl
    | some e =>
      obtain ⟨e', he', -⟩ := h.course e hs
      cases ht.symm.trans he'
  refine hg.fields ⟨hx, ?_, ?_, ?_, ?_, ?_, ?_, ?_, ?_⟩ ?_ ?_ <;> rw [h.frame]

/-- The invariants that the gates rest on, with a step's reading of the queues. -/
def State.BusHeld (s : State) : Prop := s.ListsSound ∧ s.PlanSound ∧ s.GatesSound

theorem busHeld_popQueues (p : List Instr) (w : List WireEvent) (h : s.BusHeld) : ({ s with pending := p, wires := w } : State).BusHeld := by
  obtain ⟨hl, hp, hg⟩ := h
  have k : KeepsBus s { s with pending := p, wires := w } := hg.fields ⟨.rfl, rfl, rfl, rfl, rfl, rfl, rfl, rfl, rfl⟩ rfl rfl
  exact ⟨lists_popQueues p w hl, hp.congr rfl rfl rfl, k.1⟩

theorem busHeld_quiet (h : Quiet s t) (hs : s.BusHeld) : t.BusHeld :=
  ⟨lists_quiet h hs.1, plan_quiet h hs.2.1, (gates_quiet h hs.2.2).1⟩

theorem busHeld_event (h : Event s t) (hs : s.BusHeld) : t.BusHeld :=
  ⟨lists_event h hs.1, plan_event h hs.2.1, (gates_event h hs.1 hs.2.1 hs.2.2).1⟩

/-- Settles O58: within an event the gates stay open, and the offer or the turnover that ends it settles the rest. -/
theorem gatesStaySound : Obligations.GatesStaySound := by
  unfold Obligations.GatesStaySound
  intro s t hl hp hg h
  exact (step_keeps (I := State.BusHeld) (fun s p w => busHeld_popQueues p w) (fun s t => busHeld_quiet) (fun s t => busHeld_event)
    ⟨hl, hp, hg⟩ h).2.2

/-- Settles O59: an event that could leave the bus free with a use for it ends with an offer. -/
theorem freeBusIsOffered : Obligations.FreeBusIsOffered := by
  unfold Obligations.FreeBusIsOffered
  intro s t hl hp hg hu h
  refine (step_keeps (I := fun s => s.BusHeld ∧ s.BusUsed) (fun s p w ⟨hs, hu⟩ => ⟨busHeld_popQueues p w hs, hu⟩)
    (fun s t k ⟨hs, hu⟩ => ⟨busHeld_quiet k hs, (gates_quiet k hs.2.2).2 hu⟩) (fun s t k ⟨hs, hu⟩ => ?_) ⟨⟨hl, hp, hg⟩, hu⟩ h).2
  exact ⟨busHeld_event k hs, (gates_event k hs.1 hs.2.1 hs.2.2).2 hu⟩

end Sys2Proof.Machine

/-! PROOF. No fenced write starts (O60): the two places where an exchange with words to write starts, a try start and a MODIFY's
mid-point, have just asked the fence. -/

namespace Sys2Proof.Machine

variable {s t : State} {o : Option Origin}

/-- A record's exchange with words to write that is in PREAMBLE is of an ACTIVE record that is not fenced (R48, R123). -/
def State.StartsUnfenced (s : State) : Prop :=
  ∀ (e : Exchange) (i : SlotIx) (g : Byte), s.exchange = some e → e.origin = .record i g → e.op = .write → e.stage = .preamble →
    ∃ r : Record, s.record i = some r ∧ r.state = .active ∧ r.owner = some (chainPort r.home) ∧
      s.fenced (chainPort r.home) r.kind r.target = false

/-- No exchange is in PREAMBLE. -/
def State.NoPreamble (s : State) : Prop := ∀ e : Exchange, s.exchange = some e → e.stage ≠ .preamble

theorem State.NoPreamble.unfenced (h : s.NoPreamble) : s.StartsUnfenced := fun e _ _ he _ _ hp => absurd hp (h e he)

theorem State.NoPreamble.congr (h : s.NoPreamble) (hx : t.exchange = s.exchange) : t.NoPreamble := fun e he => h e (hx ▸ he)

theorem noPreamble_of_idle (h : s.exchange = none) : s.NoPreamble := fun e he => by rw [h] at he; cases he

theorem unfenced_of_idle (h : s.exchange = none) : s.StartsUnfenced := (noPreamble_of_idle h).unfenced

theorem fenced_congr (h : t.resvs = s.resvs) (p : Port) (k : Kind) (a : BitVec 6) : t.fenced p k a = s.fenced p k a := by
  simp only [State.fenced, State.otherClaim, h]

theorem State.StartsUnfenced.congr (h : s.StartsUnfenced) (hx : t.exchange = s.exchange) (hs : t.slots = s.slots)
    (hr : t.resvs = s.resvs) : t.StartsUnfenced := by
  intro e i g he ho hop hp
  obtain ⟨r, h1, h2, h3, h4⟩ := h e i g (hx ▸ he) ho hop hp
  exact ⟨r, by rw [State.record, hs]; exact h1, h2, h3, by rw [fenced_congr hr, h4]⟩

/-! ### The starts -/

theorem unfenced_tryStart (h : s.StoreSound) (hx : s.exchange = none) (c : ChainIx) : (tryStart c s).StartsUnfenced := by
  unfold tryStart
  split
  · exact unfenced_of_idle hx
  · next i r hh =>
    split
    · exact unfenced_of_idle ((store_damageSlot s i).exchange.trans hx)
    · split
      · exact unfenced_of_idle ((store_haltHead s c i r .fenced).exchange.trans hx)
      · next hf =>
        obtain ⟨-, hown, hhome⟩ := h.head_chain hh
        intro e j g he ho _ _
        cases he
        cases (recordExchange_origin s i r).symm.trans ho
        refine ⟨{ r with state := .active }, (record_putRecord s i i _).trans (if_pos rfl), rfl, ?_, ?_⟩
        · exact (home_congr rfl rfl : _ = r.home) ▸ hhome ▸ hown
        · rw [show ({ r with state := .active } : Record).home = c from hhome]
          exact Bool.eq_false_iff.mpr hf

theorem unfenced_burstContinue (h : s.StoreSound) (hx : s.exchange = none) (c : ChainIx) : (burstContinue c s).StartsUnfenced := by
  unfold burstContinue
  split
  · split
    · split
      · refine unfenced_tryStart ?_ ?_ c
        · exact h.congr (.ofFields rfl rfl rfl)
        · exact hx
      · exact unfenced_of_idle hx
    · exact unfenced_of_idle hx
  · exact unfenced_of_idle hx

theorem unfenced_tryResult {i : SlotIx} {g : Byte} {r : Record} (h : s.ListsAt (some (.record i g))) (hr : s.record i = some r)
    (hs : r.state = .active) (hx : s.exchange = none) (k : TryResult i r s t) : t.StartsUnfenced := by
  have halted : ∀ (c : ChainIx) (r' : Record) (why : HaltReason), (endGrant (haltHead c i r' why s)).StartsUnfenced :=
    fun c r' why => unfenced_of_idle ((store_haltHead s c i r' why).exchange.trans hx)
  cases k with
  | @completes r' out res he =>
    obtain ⟨e, rfl⟩ := he
    have hown : r.owner ≠ none := fun ho => by
      have := h.1.owned i r hr ho
      rw [hs] at this
      cases this
    have hleft := lists_leaveCompleted h (r := (r.afterTry e).completed res) out ((afterTry_place r e).1 ▸ hown)
    exact unfenced_burstContinue (lists_skipGroup hleft _ _).1
      (((store_leaveCompleted s i _ _).trans (store_skipGroup _ _ _)).exchange.trans hx) _
  | cancelled => exact unfenced_of_idle ((store_retire s i _ _).exchange.trans hx)
  | requeued => exact unfenced_of_idle hx
  | halted => exact halted _ _ _
  | spent =>
    unfold spendBudget
    split
    · exact unfenced_of_idle hx
    · dsimp only
      split
      · exact halted _ _ _
      · exact unfenced_of_idle hx

theorem unfenced_recordOutcome {e : Exchange} {i : SlotIx} {g : Byte} (h : s.ListsAt (some (.record i g))) (hx : s.exchange = none)
    (he : e.origin = .record i g) (out : Outcome) (words : List Word) : (recordOutcome e i g out words s).StartsUnfenced := by
  generalize ht : recordOutcome e i g out words s = t
  cases ht ▸ recordOutcome_result e i g out words s with
  | nothing => exact unfenced_of_idle hx
  | freed => exact unfenced_of_idle hx
  | tried hr hs _ hres => exact unfenced_tryResult h hr hs hx hres
  | @writes r old hr hs _ hf =>
    intro e' j g' he' ho _ _
    cases he'
    cases he.symm.trans ho
    obtain ⟨-, hown, -⟩ := h.1.member_owner (h.1.chain_full i r hr (.inr (.inl hs))) hr
    exact ⟨r, hr, hs, hown, hf⟩

theorem unfenced_handOff {e : Exchange} (h : s.ListsAt (some e.origin)) (hx : s.exchange = none) (out : Outcome)
    (words : List Word) : (handOff e out words s).StartsUnfenced := by
  unfold handOff
  split
  · next i g he => exact unfenced_recordOutcome (he ▸ h) hx he out words
  · next i edit he => exact unfenced_of_idle ((same_pollOutcome i edit out words).2.trans hx)

/-! ### The compound operations -/

theorem unfenced_startPoll (hx : s.exchange = none) : (startPoll s).StartsUnfenced := by
  unfold startPoll
  split
  · exact unfenced_of_idle hx
  · split
    · exact unfenced_of_idle hx
    · intro e j g he ho _ _
      cases he
      cases ho

theorem unfenced_offerBus (h : s.ListsSound) (hs : s.StartsUnfenced) : (offerBus s).StartsUnfenced := by
  refine (offerBus_keeps (I := fun s => s.ListsSound ∧ s.StartsUnfenced) ?_ ?_ ?_ ?_ ⟨h, hs⟩).2
  · exact fun s ⟨h, hs⟩ => ⟨h.congr (.ofFields rfl rfl rfl) rfl, hs.congr rfl rfl rfl⟩
  · exact fun s ⟨h, hs⟩ => ⟨h.congr (.ofFields rfl rfl rfl) rfl, hs.congr rfl rfl rfl⟩
  · exact fun s hm _ ⟨h, _⟩ => ⟨lists_startPoll h (mayOffer_idle hm), unfenced_startPoll (mayOffer_idle hm)⟩
  · refine fun s c hm _ ⟨h, _⟩ => ⟨lists_grant_tryStart h (mayOffer_idle hm) c, ?_⟩
    exact unfenced_tryStart ((listsSound_iff.mp h).congr (same_grantTo c)).1 ((grantTo_exchange s c).trans (mayOffer_idle hm)) c

/-- An offer of the bus where no exchange is in PREAMBLE. -/
theorem unfenced_offer (h : t.ListsSound) (hn : s.NoPreamble) (hx : t.exchange = s.exchange) : (offerBus t).StartsUnfenced :=
  unfenced_offerBus h (hn.congr hx).unfenced

theorem unfenced_turnoverEvent (h : s.ListsSound) (hx : s.exchange = none) (m : Marks) : (turnoverEvent m s).StartsUnfenced := by
  have hx' := turnoverReactions_exchange (s := s) m
  exact unfenced_offer (h.map hx' fun o h => lists_turnoverReactions h m) (noPreamble_of_idle hx) hx'

theorem unfenced_endExchange {e e' : Exchange} (h : s.ListsSound) (hx : s.exchange = some e) (he : e'.origin = e.origin)
    (out : Outcome) (words : List Word) : (endExchange e' out words s).StartsUnfenced := by
  have hb : s.busOrigin = some e'.origin := by rw [State.busOrigin, hx, he]; rfl
  have hclear : ({ clearMarks s with exchange := none } : State).ListsAt (some e'.origin) :=
    (hb ▸ listsSound_iff.mp h).congr (same_clearMarks.trans (.ofFields rfl rfl rfl))
  have hlist := hclear.congr (same_updateTarget e' out)
  unfold endExchange
  refine afterExchange_keeps (I := fun s => s.ListsSound ∧ s.StartsUnfenced) (J := State.StartsUnfenced) ?_ ?_ ?_
    ⟨lists_handOff hlist (updateTarget_exchange e' out) out words, unfenced_handOff hlist (updateTarget_exchange e' out) out words⟩
  · refine fun ⟨h, hs⟩ => ⟨lists_drained h, ?_⟩
    unfold drained
    split
    · exact hs.congr rfl rfl rfl
    · exact hs
  · exact fun s hx ⟨h, _⟩ => unfenced_turnoverEvent h hx _
  · exact fun s ⟨h, hs⟩ => unfenced_offerBus (h.congr (same_restoreMarks _) rfl) (hs.congr rfl rfl rfl)

/-! ### The events -/

/-- An event that finds no exchange in PREAMBLE starts no fenced write. -/
theorem unfenced_event (h : Event s t) (hl : s.ListsSound) (hn : s.NoPreamble) : t.StartsUnfenced := by
  have kept : ∀ t : State, t.exchange = s.exchange → t.StartsUnfenced := fun t hx => (hn.congr hx).unfenced
  cases h with
  | powerOn => exact unfenced_of_idle rfl
  | sessionEnd =>
    refine unfenced_offer (lists_sessionEnd hl _) hn ?_
    rw [sessionEnd_eq]
    exact (decision_leaveProposal (leaveBlocks _ s) _).exchange
  | @post p _ b i _ _ hi =>
    have hpost : (acceptPost p b i s).ListsSound := hl.map rfl fun o h => lists_acceptPost h hi
    exact unfenced_offer hpost hn rfl
  | storeFault => exact kept _ (StoreFrame.foldl (fun s i => store_damageSlot s i) _ s).exchange
  | @retire p i r k _ hr _ hst =>
    have hx := (store_retire s i r k).exchange
    refine unfenced_offer (hl.map hx fun o h => lists_retire h _ fun ho => ?_) hn hx
    have := hl.owned i r hr ho
    obtain e | e := hst <;> cases e.symm.trans this
  | cancelActive => exact kept _ (store_setCancelPending s _ _).exchange
  | flush => exact kept _ (store_flushChain s _).exchange
  | @chainGo c =>
    have hgo : (modChain c (fun ch => { ch with hold := false }) s).ListsSound := lists_modChain hl fun _ => rfl
    exact unfenced_offer hgo hn rfl
  | @chainRetry c i r hh =>
    have hretry : (putRecord i r.retried s).ListsSound := hl.map rfl fun o h =>
      lists_head hh h (writes_putRecord _ _) rfl rfl (.inl rfl) fun hb => by simp [Record.onBus, Record.retried] at hb
    exact unfenced_offer hretry hn rfl
  | pollPause => exact phaseTest_keeps (I := State.StartsUnfenced) (fun s h => h.congr rfl rfl rfl) (kept _ rfl)
  | pollDelete => exact phaseTest_keeps (I := State.StartsUnfenced) (fun s h => h.congr rfl rfl rfl) (kept _ rfl)
  | propose => exact kept _ (store_raiseProposal _ _).exchange
  | proposeAlone =>
    refine unfenced_offer (lists_decide (lists_acceptPropose hl _ _) _ _) hn ?_
    exact (decision_decideProposal _ _ _).exchange.trans (store_raiseProposal _ _).exchange
  | consent => exact unfenced_offer (lists_decide hl _ _) hn (decision_decideProposal _ _ _).exchange
  | decide => exact kept _ (decision_decideProposal _ _ _).exchange
  | turnover hx => exact unfenced_turnoverEvent (s := clearMarks s) (hl.congr same_clearMarks rfl) hx _
  | endExchange he hlead => exact unfenced_endExchange hl he hlead.origin _ _
  | lineFaultEnd he => exact unfenced_endExchange (lists_enterLineFault hl) he rfl _ _
  | lineOk =>
    have h' : ({ s with line := .ok, run := 0, releasedCount := 0 } : State).ListsSound := hl.congr (.ofFields rfl rfl rfl) rfl
    exact unfenced_offer h' hn rfl
  | upset i stored =>
    refine kept _ ?_
    unfold upsetSlot
    split <;> rfl
  | nothing | attach | chainSet | chainPause | pollCreate | pollChange | pollResume | pollAdopt | claim | renew | release | fetch |
    notify | confirm | overrun | lineFault => exact kept _ rfl

theorem noPreamble_quiet (h : Quiet s t) (hn : s.NoPreamble) : t.NoPreamble := by
  intro e' he' hp
  cases hx : s.exchange with
  | none => rw [h.idle hx] at he'; cases he'
  | some e =>
    obtain ⟨f, hf, hlead⟩ := h.course e hx
    cases hf.symm.trans he'
    exact hn e hx (hlead.preamble hp)

theorem unfenced_quiet (h : Quiet s t) (hs : s.StartsUnfenced) : t.StartsUnfenced := by
  intro e' i g he' ho hop hp
  cases hx : s.exchange with
  | none => rw [h.idle hx] at he'; cases he'
  | some e =>
    obtain ⟨f, hf, hlead⟩ := h.course e hx
    cases hf.symm.trans he'
    obtain ⟨r, h1, h2, h3, h4⟩ := hs e i g hx (hlead.origin ▸ ho) (hlead.op ▸ hop) (hlead.preamble hp)
    refine ⟨r, by rw [(SameStore.ofQuiet h).record]; exact h1, h2, h3, ?_⟩
    rw [fenced_congr (show t.resvs = s.resvs by rw [h.frame]), h4]

/-- Settles O60: of the three parts of a step only the event can bring an exchange to PREAMBLE. -/
theorem noFencedWriteStarts : Obligations.NoFencedWriteStarts := by
  unfold Obligations.NoFencedWriteStarts
  intro s t e i g hl h he ho hop hp hn
  obtain ⟨p, w, u, v, hu, hev, hv⟩ := step_carries h
  have hnu : u.NoPreamble := noPreamble_quiet hu (s := { s with pending := p, wires := w }) hn
  have hlu := lists_quiet hu (lists_popQueues p w hl)
  exact unfenced_quiet hv (unfenced_event hev hlu hnu) e i g he ho hop hp

end Sys2Proof.Machine

/-! PROOF. The machine's step (O1), the state right after reset and after POWER_ON (O3, O4), and the invariants at reset (O51). -/

namespace Sys2Proof.Machine

variable {s : State}

/-! ### One step -/

theorem upsetSlot_held {i : SlotIx} {r : Record} (h : s.record i = some r) (stored : Record) :
    upsetSlot i stored s = { s with slots := modAt s.slots i fun sl =>
      { gen := sl.gen, record := some (r.upsetTo stored), codeMatches := false } } := by
  simp only [upsetSlot, h]

theorem upsetSlot_free {i : SlotIx} (h : s.record i = none) (stored : Record) : upsetSlot i stored s = s := by
  simp only [upsetSlot, h]

theorem step_idle (hp : s.pending = []) (hw : s.wires = []) : step s = .next s := by
  simp only [step, hp, hw]

/-- Settles O1: the step reads the queue, then the inputs; an input is a byte, a bit period or an upset. -/
theorem stepRunsFrontCommand : Obligations.StepRunsFrontCommand := by
  unfold Obligations.StepRunsFrontCommand
  refine ⟨fun _ _ _ => ⟨rfl, rfl⟩, fun _ _ v i j f g => ⟨modAt_get v i j f, tab_get g j⟩, fun _ _ _ => rfl, fun _ _ _ => rfl,
    fun s => step_idle, fun _ _ _ => rfl, fun _ _ => rfl, fun i stored s => ⟨fun h => ?free, fun r h => ?held⟩⟩
  case free => exact congrArg Host.Outcome.next (upsetSlot_free h stored)
  case held => exact congrArg Host.Outcome.next (upsetSlot_held h stored)

/-! ### Reset -/

theorem reset_port (p : Port) : State.reset.ports[p] = PortIf.powerOn false false := by simp [State.reset]

theorem reset_slot (i : SlotIx) : State.reset.slots[i] = Slot.powerOn := by simp [State.reset]

theorem reset_poll (i : PollIx) : State.reset.polls[i] = { edit := 0, body := none } := by simp [State.reset]

theorem reset_resv (e : ResvIx) : State.reset.resvs[e] = none := by simp [State.reset]

theorem reset_quota (p : Port) : State.reset.quotas[p] = 32 := by simp [State.reset]

theorem reset_target (t : Fin 63) : State.reset.targets[t] = Target.powerOn := by simp [State.reset]

theorem reset_holding (p : Port) : State.reset.holding p = 0 := by
  refine List.countP_eq_zero.mpr fun i _ h => ?_
  obtain ⟨r, hr, -⟩ := ownedBy_iff.mp h
  rw [reset_record] at hr
  cases hr

theorem reset_chainState (c : ChainIx) : State.reset.chainState c = .empty :=
  chainState_eq_empty (head_eq_none_of_nil (congrArg Chain.list (reset_chain c)))

theorem reset_notify (p : Port) : State.reset.notify p = false := by
  rw [State.notify, State.attached, reset_port]
  rfl

/-- Settles O3: block by block, each entry of each table at its power-on value. -/
theorem resetHasPowerOnValues : Obligations.ResetHasPowerOnValues := by
  unfold Obligations.ResetHasPowerOnValues
  refine ⟨fun i => ⟨reset_record i, ?_⟩, fun p => ⟨reset_quota p, reset_holding p⟩, fun c => ⟨reset_chain c, reset_chainState c⟩,
    rfl, rfl, rfl, rfl, rfl, rfl, reset_target, rfl, rfl, rfl, rfl, rfl, rfl, rfl, rfl, rfl, rfl, rfl, rfl, reset_poll, rfl,
    reset_resv, fun p => ⟨reset_report p, reset_notify p⟩, rfl, rfl, rfl, fun p => ?_⟩
  · rw [reset_slot]; rfl
  · rw [reset_port]; exact ⟨rfl, rfl, rfl, rfl⟩

/-- Settles O4: `powerOn` is the reset state but for the ports, which follow their pins. -/
theorem powerOnFromAnyState : Obligations.PowerOnFromAnyState := by
  unfold Obligations.PowerOnFromAnyState
  intro s
  refine ⟨tab fun p => PortIf.powerOn s.ports[p].sel s.ports[p].prst, rfl, fun p => ?_⟩
  rw [tab_get]
  rfl

/-! ### The invariants at reset -/

theorem reset_lists : State.reset.ListsSound :=
  listsSound_of_empty reset_record (fun c => congrArg Chain.list (reset_chain c)) fun p => congrArg Report.queue (reset_report p)

theorem reset_plan : State.reset.PlanSound where
  distinct i j b d hb := by rw [reset_poll] at hb; cases hb
  pending_once := List.nodup_nil
  pending_active i hi := by cases hi
  polled_apart e i edit he := by cases he

theorem reset_claims : State.reset.ClaimsSound where
  disjoint e f a b ha := by rw [reset_resv] at ha; cases ha
  leased e a ha := by rw [reset_resv] at ha; cases ha

theorem reset_sessions : State.reset.SessionsSound where
  slots i r p hr := by rw [reset_record] at hr; cases hr
  reports p _ := reset_report p
  resvs e a ha := by rw [reset_resv] at ha; cases ha
  creators i b p hb := by rw [reset_poll] at hb; cases hb
  required pr p hpr := by cases hpr

theorem reset_gates : State.reset.GatesSound where
  fault_idle h := by cases h
  expired_busy h := by cases h
  draining_busy h := by cases h
  grant_busy g h := by cases h
  poll_phase h := by cases h

theorem reset_busUsed : State.reset.BusUsed := fun _ => ⟨rfl, fun c => Bool.eq_false_iff.mpr fun h => by
  have hready := eligible_ready h
  rw [reset_chainState] at hready
  cases hready⟩

/-- Settles O51: reset holds nothing that an invariant could speak of, and its settings are in range. -/
theorem resetIsSound : Obligations.ResetIsSound := by
  unfold Obligations.ResetIsSound
  exact ⟨reset_lists, reset_plan, reset_claims, reset_sessions, nofun, reset_gates, reset_busUsed, range_reset⟩

end Sys2Proof.Machine

/-! PROOF. Requests and sessions (11): how a request is taken and answered, or refused before its own checks (O6, O7), the pins of a
port (O5), ATTACH, DETACH and STATUS (O8), and the session end (O9, O10). -/

namespace Sys2Proof.Machine

variable {s : State} {p : Port} {seq : Byte} {body : List Byte}

/-! ### Taking a request -/

/-- A request is answered with its reply at a port that takes it (R165, R167). -/
theorem answered_of_reply {c : Instr} {f : State → Reply} {r : Reply} (he : exec c s = takeRequest p seq f s) (ht : s.takes p)
    (h : f s = r) : Answered c s p seq r.code r.body r.state := by
  subst h
  exact he.trans (takeRequest_receiving s seq f ht)

/-- A request whose reply is a refusal is refused (R166). -/
theorem refused_of_reply {c : Instr} {f : State → Reply} {code : ResultCode} (he : exec c s = takeRequest p seq f s) (ht : s.takes p)
    (h : f s = refuse code s) : Refused c s p seq code := answered_of_reply he ht h

/-! ### The pins of a port (R164, R167, R172) -/

theorem modAt_congr {α : Type} {n : Nat} {v : Vector α n} {i : Fin n} {f g : α → α} (h : f v[i] = g v[i]) : modAt v i f = modAt v i g := by
  simp only [modAt, h]

theorem modAt_self {α : Type} {n : Nat} {v : Vector α n} {i : Fin n} {f : α → α} (h : f v[i] = v[i]) : modAt v i f = v :=
  table_ext fun j => by
    rw [modAt_get]
    split
    · next e => rw [e, h]
    · rfl

/-- A change of a port, by what it makes of the port as it stands. -/
theorem modPort_of_eq {f g : PortIf → PortIf} (h : f s.ports[p] = g s.ports[p]) :
    modPort p f s = { s with ports := modAt s.ports p g } := by
  rw [modPort, modAt_congr h]

theorem modPort_id {f : PortIf → PortIf} (h : f s.ports[p] = s.ports[p]) : modPort p f s = s := by
  rw [modPort, modAt_self h]

theorem selAssert_waiting {q : PortIf} (h : q.txn = .waiting) :
    q.selAssert = { q with sel := true, txn := .receiving, rx := [], sdo := if q.sel then q.sdo else some 0 } := by
  simp only [PortIf.selAssert, h, if_true]

theorem selAssert_other {q : PortIf} (h : q.txn ≠ .waiting) :
    q.selAssert = { q with sel := true, sdo := if q.sel then q.sdo else some 0 } := by
  simp only [PortIf.selAssert, h, if_false]

theorem selRelease_other {q : PortIf} (h : q.txn ≠ .resetHeld) :
    q.selRelease = { q with sel := false, txn := .waiting, rx := [], answer := none, sdo := none } := by
  simp only [PortIf.selRelease, h, if_false]

theorem selRelease_resetHeld {q : PortIf} (h : q.txn = .resetHeld) :
    q.selRelease = { q with sel := false, rx := [], answer := none, sdo := none } := by
  simp only [PortIf.selRelease, h, if_true]

theorem responseSent_answering {q : PortIf} (h : q.txn = .answering) : q.responseSent = { q with txn := .spent, answer := none } := by
  simp only [PortIf.responseSent, h, if_true]

theorem responseSent_other {q : PortIf} (h : q.txn ≠ .answering) : q.responseSent = q := by
  simp only [PortIf.responseSent, h, if_false]

theorem prstDeassert_resetHeld {q : PortIf} (h : q.txn = .resetHeld) :
    q.prstDeassert = { q with prst := false, txn := if q.sel then .spent else .waiting } := by
  simp only [PortIf.prstDeassert, h, if_true]

theorem prstDeassert_other {q : PortIf} (h : q.txn ≠ .resetHeld) : q.prstDeassert = { q with prst := false } := by
  simp only [PortIf.prstDeassert, h, if_false]

/-- Settles O5: each event changes its own port, by the transaction state that the port is in. -/
theorem portPins : Obligations.PortPins := by
  unfold Obligations.PortPins
  have next : ∀ {f g : PortIf → PortIf} {p : Port} {s : State}, f s.ports[p] = g s.ports[p] →
      Host.Outcome.next (modPort p f s) = (Host.Outcome.next { s with ports := modAt s.ports p g } : Host.Outcome State Fault Refusal) :=
    fun h => congrArg _ (modPort_of_eq h)
  refine ⟨fun p s => ⟨fun h => ?_, fun h => ?_, fun h => ?_, fun h => ?_, fun h => ?_, fun h => ?_⟩, fun p s =>
    ⟨fun h => if_pos h, fun h => if_neg (by simp [h]), fun h => ?_, fun h => ?_⟩⟩
  · exact next (selAssert_waiting h)
  · exact next (selAssert_other h)
  · exact next (selRelease_other h)
  · exact next (selRelease_resetHeld h)
  · exact next (responseSent_answering h)
  · exact congrArg Host.Outcome.next (modPort_id (responseSent_other h))
  · exact next (prstDeassert_resetHeld h)
  · exact next (prstDeassert_other h)

/-! ### Frames and the catalogue (R165, R166, section 12.5) -/

theorem lengthInRange_iff {len : Byte} : lengthInRange len = true ↔ 3 ≤ len.toNat ∧ len.toNat ≤ 63 := by
  rw [lengthInRange, Bool.and_eq_true, decide_eq_true_iff, decide_eq_true_iff]
  exact Iff.rfl

theorem frameComplete_iff {bytes : List Byte} : frameComplete bytes = true ↔
    ∃ (len : Byte) (rest : List Byte),
      bytes = len :: rest ∧ if 3 ≤ len.toNat ∧ len.toNat ≤ 63 then rest.length = len.toNat else rest = [] := by
  unfold frameComplete
  cases bytes with
  | nil => simp
  | cons len rest =>
    by_cases h : lengthInRange len = true
    · have h' := lengthInRange_iff.mp h
      simp [h, h']
    · have h' := mt lengthInRange_iff.mpr h
      simp [h, h']

/-- A complete frame is good when it has a length in range and its last byte is the CRC-8 of the others (R166). -/
theorem frameGood_iff {bytes : List Byte} (hc : frameComplete bytes = true) :
    frameGood bytes = true ↔ 4 ≤ bytes.length ∧ ∃ front : List Byte, bytes = front ++ [crc8 front] := by
  obtain ⟨len, rest, rfl, hlen⟩ := frameComplete_iff.mp hc
  have hcrc : ((len :: rest).getLast? == some (crc8 (len :: rest).dropLast)) = true ↔
      ∃ front : List Byte, len :: rest = front ++ [crc8 front] := by
    rw [beq_iff_eq]
    constructor
    · intro h
      refine ⟨(len :: rest).dropLast, (List.dropLast_append_getLast? _ ?_).symm⟩
      exact h
    · rintro ⟨front, h⟩
      rw [h]
      simp
  rw [frameGood, Bool.and_eq_true, lengthInRange_iff, hcrc]
  refine and_congr_left fun _ => ?_
  split_ifs at hlen with hr
  · exact iff_of_true hr (by simp; omega)
  · rw [hlen]
    exact iff_of_false hr (by simp)

theorem byte_of_toNat {b : Byte} {n : Nat} (h : b.toNat = n) : b = BitVec.ofNat 8 n := by
  rw [← h, BitVec.ofNat_toNat, BitVec.setWidth_eq]

/-- A request of the catalogue is taken by its reply; all but ATTACH and STATUS refuse a DETACHED port first (R169). -/
theorem requestOf_reply {code : Byte} {c : Instr} (h : requestOf code p seq body = some c) :
    ∃ f : State → Reply, (∀ s, exec c s = takeRequest p seq f s) ∧
      (code ≠ 0x01 → code ≠ 0x02 → ∀ s, s.attached p = false → f s = refuse .detached s) := by
  unfold requestOf at h
  split at h
  case h_34 => cases h
  case h_1 hc => cases h; exact ⟨_, fun _ => rfl, fun h1 => absurd (byte_of_toNat hc) h1⟩
  case h_2 hc => cases h; exact ⟨_, fun _ => rfl, fun _ h2 => absurd (byte_of_toNat hc) h2⟩
  all_goals
    cases h
    refine ⟨_, fun _ => rfl, fun _ _ s ha => ?_⟩
    change (if s.attached p = true then _ else refuse .detached s) = _
    rw [if_neg (by simp [ha])]

theorem requestOf_eq_find (code : Byte) (p : Port) (seq : Byte) (body : List Byte) :
    requestOf code p seq body =
      (([(0x01, .attach), (0x02, .status), (0x03, .detach), (0x10, .post), (0x11, .peek), (0x12, .cancel),
        (0x13, .targetQuery), (0x20, .chainSet), (0x21, .chainPause), (0x22, .chainGo), (0x23, .chainRetry),
        (0x24, .chainDrop), (0x25, .chainFlush), (0x26, .chainQuery), (0x30, .pollCreate), (0x31, .pollChange),
        (0x32, .pollPause), (0x33, .pollResume), (0x34, .pollDelete), (0x35, .pollAdopt), (0x36, .snapRead),
        (0x40, .claim), (0x41, .renew), (0x42, .release), (0x43, .claimQuery), (0x50, .fetch), (0x51, .notifySet),
        (0x52, .notifyAck), (0x60, .propose), (0x61, .confirm), (0x62, .decline), (0x63, .withdraw),
        (0x64, .agreeQuery)] : List (Byte × (Port → Byte → List Byte → Instr))).find? fun entry => entry.1 == code).map
          fun entry => entry.2 p seq body := by
  unfold requestOf
  split
  case h_34 h1 h2 h3 h4 h5 h6 h7 h8 h9 h10 h11 h12 h13 h14 h15 h16 h17 h18 h19 h20 h21 h22 h23 h24 h25 h26 h27 h28 h29 h30 h31 h32 h33 =>
    symm
    rw [Option.map_eq_none_iff, List.find?_eq_none]
    intro entry hentry hc
    have hc : entry.1 = code := by simpa using hc
    subst hc
    fin_cases hentry <;> contradiction
  all_goals
    rename_i h
    rw [byte_of_toNat h]
    rfl

theorem exec_frame {bytes : List Byte} (hc : frameComplete bytes = true) (hg : frameGood bytes = false) :
    exec (.frame p bytes) s = takeRequest p (bytes.getD 2 0) (refuse .frame) s := if_pos (by simp [hc, hg])

theorem exec_unknown {code : Byte} (h : requestOf code p seq body = none) :
    exec (.unknown p code seq body) s = takeRequest p seq (refuse .unknown) s := if_pos (by simp [h])

/-- Settles O6: frames by their length byte and CRC-8, codes by the catalogue, and each request of it by its reply. -/
theorem requestsTakenOrRefused : Obligations.RequestsTakenOrRefused := by
  unfold Obligations.RequestsTakenOrRefused
  refine ⟨fun bytes => ⟨frameComplete_iff, frameGood_iff⟩, requestOf_eq_find, ⟨fun p bytes s ht hc hg => ?_, fun p code seq body s ht h => ?_⟩,
    fun code p seq body c s h => ?_⟩
  · exact refused_of_reply (exec_frame hc hg) ht rfl
  · exact refused_of_reply (exec_unknown h) ht rfl
  · obtain ⟨f, hf, hdet⟩ := requestOf_reply h
    exact ⟨fun ht => (hf s).trans (takeRequest_ignored s seq f ht),
      fun ht ha h1 h2 => refused_of_reply (hf s) ht (hdet h1 h2 s ha)⟩

/-! ### Answers (R167, R176) -/

theorem byte_toNat (n : Nat) : (byte n).toNat = n % 256 := BitVec.toNat_ofNat _ _

theorem wordBytes_eq (w : Word) : wordBytes w = [byte (w.toNat / 256), byte (w.toNat % 256)] := by
  have hhi : w.extractLsb' 8 8 = byte (w.toNat / 256) := BitVec.eq_of_toNat_eq (by
    simp [byte, BitVec.extractLsb'_toNat, Nat.shiftRight_eq_div_pow])
  have hlo : w.extractLsb' 0 8 = byte (w.toNat % 256) := BitVec.eq_of_toNat_eq (by
    simp [byte, BitVec.extractLsb'_toNat])
  rw [wordBytes, hhi, hlo]

/-- A CRC over one byte more goes on from the CRC of those before it (R176). -/
theorem crcBytes_append {w : Nat} (poly init : BitVec w) (bytes : List Byte) (b : Byte) :
    crcBytes poly init (bytes ++ [b]) = (bitsOf b).foldl (crcBit poly) (crcBytes poly init bytes) := by
  simp [crcBytes, List.flatMap_append, List.foldl_append]

theorem crcBit_eq {w : Nat} (poly r : BitVec w) (bit : Bool) :
    crcBit poly r bit = if r.msb = bit then r <<< 1 else (r <<< 1) ^^^ poly := by
  unfold crcBit
  cases r.msb <;> cases bit <;> rfl

theorem crc8_append (bytes : List Byte) (b : Byte) :
    crc8 (bytes ++ [b]) =
      [7, 6, 5, 4, 3, 2, 1, 0].foldl
        (fun (crc : Byte) n => if crc.msb = b.getLsbD n then crc <<< 1 else (crc <<< 1) ^^^ 0x07) (crc8 bytes) := by
  rw [crc8, crcBytes_append]
  simp only [bitsOf, List.foldl_cons, List.foldl_nil, crcBit_eq]
  rfl

/-- Settles O7: the response frame is laid out with its own CRC-8, behind at most 8 idle bytes. -/
theorem answerFormed : Obligations.AnswerFormed := by
  unfold Obligations.AnswerFormed
  refine ⟨by decide, byte_toNat, wordBytes_eq, ⟨rfl, crc8_append⟩, fun p seq code body s => ?_⟩
  exact ⟨rfl, fun q hq => respond_port_ne s seq code body hq, _, respond_port_self s p seq code body,
    Nat.le_of_lt_succ (Config.idleBytes s.fresh).isLt, rfl⟩

/-! ### ATTACH, DETACH and STATUS (R170, R171, R174) -/

theorem statusReply_ok : statusReply p [] s = ok
    ([0x44, 0x10, 0x00, s.sched.code, s.line.code] ++ wordBytes s.sweep ++
      [byte s.overruns, if s.attached p then 1 else 0, s.ports[p].session, byte (s.holding p), byte s.quotas[p],
        byte s.reports[p].queue.length, s.reports[p].pending, s.reports[p].enables]) s := rfl

theorem attachReply_ok (ha : s.attached p = false) : attachReply p [] s = ok [s.ports[p].session + 1]
    { s with ports := modAt s.ports p fun q => { q with attached := true, session := q.session + 1 } } := by
  rw [attachReply, if_neg (not_not.mpr rfl), ha]
  rfl

theorem attachReply_badfield (hb : body ≠ []) : attachReply p body s = refuse .badfield s := if_pos hb

/-- Settles O8: each answer is the reply of its branch. -/
theorem sessionRequests : Obligations.SessionRequests := by
  unfold Obligations.SessionRequests
  refine ⟨⟨rfl, rfl⟩, fun p seq body s ht => ⟨fun ha => ?_, fun ha => ?_, fun hb => ?_, fun ha => ?_, fun ha hb => ?_⟩,
    fun p seq body s ht => ⟨?_, fun hb => ?_⟩⟩
  · exact answered_of_reply rfl ht (attachReply_ok ha)
  · exact refused_of_reply rfl ht (f := attachReply p []) (if_pos ha)
  · exact refused_of_reply rfl ht (attachReply_badfield hb)
  · exact answered_of_reply rfl ht (f := detachReply p []) (whenAttached_true s _ ha)
  · exact refused_of_reply rfl ht (f := detachReply p body) ((whenAttached_true s _ ha).trans (if_pos hb))
  · exact answered_of_reply rfl ht statusReply_ok
  · exact refused_of_reply rfl ht (f := statusReply p body) (if_pos hb)

/-! ### The session end (R17, R42, R114, R126, R141, R151, R173) -/

theorem sessionEnd_other {sl : Slot} (h : ∀ r : Record, sl.record = some r → r.owner ≠ some p) : sl.sessionEnd p = sl := by
  cases hr : sl.record with
  | none => simp only [Slot.sessionEnd, hr]
  | some r => exact sessionEnd_kept hr (.inl (h r hr))

/-- An owned slot at the session end of its port, by the record's state (R17). -/
theorem sessionEnd_owned {sl : Slot} {r : Record} (hr : sl.record = some r) (ho : r.owner = some p) :
    match r.state with
    | .queued | .halted | .done => (sl.sessionEnd p).record = none ∧ (sl.sessionEnd p).gen = sl.gen + 1
    | .active => (sl.sessionEnd p).record = some { r with state := .orphaned } ∧ (sl.sessionEnd p).gen = sl.gen
    | .orphaned => sl.sessionEnd p = sl
    | .damaged => (sl.sessionEnd p).record = some { r with owner := none } ∧ (sl.sessionEnd p).gen = sl.gen := by
  have hs : sl.sessionEnd p = match r.state with
      | .queued | .halted | .done => { gen := sl.gen + 1, record := none, codeMatches := true }
      | .active => { sl with record := some { r with state := .orphaned }, codeMatches := true }
      | .orphaned => sl
      | .damaged => { sl with record := some { r with owner := none }, codeMatches := true } := by
    unfold Slot.sessionEnd
    rw [hr]
    exact if_neg (not_not.mpr ho)
  rw [hs]
  cases r.state <;> simp

theorem poll_leaveBlocks (i : PollIx) : (leaveBlocks p s).polls[i] = s.polls[i].sessionEnd p := by
  simp only [leaveBlocks]; rw [tab_get]

theorem resv_leaveBlocks (e : ResvIx) : (leaveBlocks p s).resvs[e] = s.resvs[e].filter fun r => r.owner != p := by
  simp only [leaveBlocks]; rw [tab_get]

theorem port_leaveBlocks (q : Port) :
    (leaveBlocks p s).ports[q] = if q = p then { s.ports[p] with attached := false } else s.ports[q] := by
  simp only [leaveBlocks]; rw [modAt_get]

theorem filter_other {α : Type} {f : α → Port} {a : α} :
    (some a).filter (fun x => f x != p) = if f a = p then none else some a := by
  rw [Option.filter_some]
  by_cases h : f a = p <;> simp [h]

/-- Settles O9: the blocks' parts, entry by entry of each table. -/
theorem sessionEndByBlock : Obligations.SessionEndByBlock := by
  unfold Obligations.SessionEndByBlock
  intro p s
  refine ⟨leaveBlocks p s, rfl, rfl, ?_, fun q hq => ⟨?_, ?_⟩, ?_, fun i h => ?_, fun i r hr ho => ?_, chain_leaveBlocks p,
    fun g hg => ?_, fun hg => ?_, fun e a ha => ?_, fun e he => ?_, fun i => ⟨?_, fun hb => ?_, fun b hb => ?_⟩⟩
  · rw [port_leaveBlocks, if_pos rfl]
  · rw [port_leaveBlocks, if_neg hq]
  · rw [report_leaveBlocks, if_neg hq]
  · rw [report_leaveBlocks, if_pos rfl]; rfl
  · rw [record_leaveBlocks, sessionEnd_other h]
  · have h := sessionEnd_owned (sl := s.slots[i]) hr ho
    rw [← record_leaveBlocks] at h
    exact h
  · exact (congrArg (Option.filter _) hg).trans filter_other
  · exact congrArg (Option.filter _) hg
  · rw [resv_leaveBlocks, ha, filter_other]
  · rw [resv_leaveBlocks, he]; rfl
  · rw [poll_leaveBlocks]; rfl
  · rw [poll_leaveBlocks, PollEntry.sessionEnd, hb]; rfl
  · rw [poll_leaveBlocks, PollEntry.sessionEnd, hb]; rfl

section
variable {pr : Proposal} (hpr : s.proposal = some pr)
include hpr

theorem leaveProposal_unaffected (h : pr.required.has p = false) : leaveProposal p s = s := by
  simp [leaveProposal, hpr, h]

variable (hp : pr.required.has p = true)
include hp

theorem leaveProposal_own (h : pr.proposer = p) : leaveProposal p s = decideProposal (pr.without p) .withdrawn s := by
  simp [leaveProposal, hpr, hp, h, Proposal.without]

theorem leaveProposal_complete (h : pr.proposer ≠ p) (hc : (pr.without p).complete = true) :
    leaveProposal p s = decideProposal (pr.without p) ((pr.without p).finalVerdict s) s := by
  rw [Proposal.without] at hc ⊢
  simp [leaveProposal, hpr, hp, h, hc]

theorem leaveProposal_pending (h : pr.proposer ≠ p) (hc : (pr.without p).complete = false) :
    leaveProposal p s = { s with proposal := some (pr.without p) } := by
  rw [Proposal.without] at hc ⊢
  simp [leaveProposal, hpr, hp, h, hc]

end

theorem finalVerdict_adopted {pr : Proposal} (h : pr.change.valid s.sched = true) : pr.finalVerdict s = .adopted := if_pos h

theorem finalVerdict_void {pr : Proposal} (h : pr.change.valid s.sched = false) : pr.finalVerdict s = .void := if_neg (by simp [h])

/-- Settles O10: by whether the port was required, proposed, or was the last to be waited for. -/
theorem membershipAtSessionEnd : Obligations.MembershipAtSessionEnd := by
  unfold Obligations.MembershipAtSessionEnd
  refine fun p s => ⟨fun h => by simp only [leaveProposal, h], fun pr hpr => ⟨leaveProposal_unaffected hpr, fun hp => ?_⟩⟩
  refine ⟨leaveProposal_own hpr hp, fun h hc => ?_, fun h hc => ?_⟩
  · have hdec := leaveProposal_complete hpr hp h (complete_iff.mpr hc)
    refine ⟨fun hv => hdec.trans ?_, fun hv => hdec.trans ?_⟩
    · rw [finalVerdict_adopted (pr := pr.without p) hv]; rfl
    · rw [finalVerdict_void (pr := pr.without p) hv]; rfl
  · exact leaveProposal_pending hpr hp h (complete_eq_false_iff.mpr hc)

end Sys2Proof.Machine

/-! PROOF. The bodies of requests (12): a POST body (O11) and the others (O12) are in range exactly as laid out. -/

namespace Sys2Proof.Machine

/-! ### Bytes, words and spans -/

section
variable {n m : Nat}

theorem append_extract (w : BitVec (n + m)) : w.extractLsb' m n ++ w.extractLsb' 0 m = w := by
  ext i hi
  simp only [BitVec.getElem_append, BitVec.getElem_extractLsb']
  split
  · simp [BitVec.getLsbD_eq_getElem hi]
  · next h => rw [Nat.add_sub_cancel' (by omega), BitVec.getLsbD_eq_getElem hi]

theorem extract_append_high (a : BitVec n) (b : BitVec m) : (a ++ b).extractLsb' m n = a := by
  ext i hi
  simp [BitVec.getElem_extractLsb', BitVec.getLsbD_append, hi]

theorem extract_append_low (a : BitVec n) (b : BitVec m) : (a ++ b).extractLsb' 0 m = b := by
  ext i hi
  simp [BitVec.getElem_extractLsb', BitVec.getLsbD_append, hi]

end

theorem byte_toNat_self (b : Byte) : byte b.toNat = b := by rw [byte, BitVec.ofNat_toNat, BitVec.setWidth_eq]

theorem byte_toNat_of_lt {n : Nat} (h : n < 256) : (byte n).toNat = n := (byte_toNat n).trans (Nat.mod_eq_of_lt h)

theorem wordOf_wordBytes (w : Word) : wordOf (w.extractLsb' 8 8) (w.extractLsb' 0 8) = w := append_extract (n := 8) (m := 8) w

theorem wordBytes_wordOf (hi lo : Byte) : wordBytes (wordOf hi lo) = [hi, lo] := by
  rw [wordBytes, wordOf, extract_append_high, extract_append_low]

theorem spanOf_word (sp : Span) : spanOf sp.word = sp := by
  have h1 : sp.word.extractLsb' 0 12 = sp.register := extract_append_low (n := 4) sp.countM1 sp.register
  have h2 : sp.word.extractLsb' 12 4 = sp.countM1 := extract_append_high sp.countM1 sp.register
  rw [spanOf, h1, h2]

theorem word_spanOf (w : Word) : (spanOf w).word = w := append_extract (n := 4) (m := 12) w

theorem wordsOf_flatMap (ws : List Word) : wordsOf (ws.flatMap wordBytes) = ws := by
  induction ws with
  | nil => rfl
  | cons w ws ih =>
    change wordOf _ _ :: wordsOf (ws.flatMap wordBytes) = _
    rw [ih, wordOf_wordBytes]

theorem flatMap_wordsOf (n : Nat) {l : List Byte} (h : l.length = 2 * n) : (wordsOf l).flatMap wordBytes = l := by
  induction n generalizing l with
  | zero => rw [List.length_eq_zero_iff.mp h]; rfl
  | succ n ih =>
    match l, h with
    | hi :: lo :: rest, h =>
      rw [wordsOf, List.flatMap_cons, wordBytes_wordOf, ih (l := rest) (by simp at h; omega)]
      rfl

theorem flatMap_wordBytes_length (ws : List Word) : (ws.flatMap wordBytes).length = 2 * ws.length := by
  induction ws with
  | nil => rfl
  | cons w ws ih => rw [List.flatMap_cons, List.length_append, ih, List.length_cons, wordBytes]; simp; omega

/-- An address in a byte of its own. -/
theorem zeroExtend_address {b : Byte} (h : b.toNat ≤ 63) : (b.extractLsb' 0 6).zeroExtend 8 = b := by
  refine BitVec.eq_of_toNat_eq ?_
  simp only [BitVec.truncate_eq_setWidth, BitVec.toNat_setWidth, BitVec.extractLsb'_toNat, Nat.shiftRight_zero]
  omega

theorem address_zeroExtend (t : BitVec 6) : (t.zeroExtend 8 : Byte).toNat ≤ 63 ∧ (t.zeroExtend 8 : Byte).extractLsb' 0 6 = t := by
  have h := t.isLt
  constructor
  · simp only [BitVec.truncate_eq_setWidth, BitVec.toNat_setWidth]; omega
  · refine BitVec.eq_of_toNat_eq ?_
    simp only [BitVec.truncate_eq_setWidth, BitVec.toNat_setWidth, BitVec.extractLsb'_toNat, Nat.shiftRight_zero]
    omega

/-! ### POST (R1, R177, section 12.2) -/

theorem kindOf_iff {b : Byte} {k : Kind} : kindOf b = some k ↔ b = k.code.zeroExtend 8 := by
  cases k <;> revert b <;> decide

/-- The second byte of a POST body: stop-short, group-end, note, budget and chain. -/
def flagsByte (stop group note : Bool) (budget : Nat) (chain : Fin 4) : Byte :=
  BitVec.ofBool stop ++ BitVec.ofBool group ++ BitVec.ofBool note ++ BitVec.ofNat 3 budget ++ BitVec.ofNat 2 chain.val

theorem flagsByte_split (b : Byte) :
    flagsByte (b.getLsbD 7) (b.getLsbD 6) (b.getLsbD 5) (b.extractLsb' 2 3).toNat (b.extractLsb' 0 2).toFin = b := by
  revert b; decide +kernel

theorem flagsByte_fields (stop group note : Bool) {budget : Nat} (h : budget ≤ 7) (chain : Fin 4) :
    let b := flagsByte stop group note budget chain
    b.getLsbD 7 = stop ∧ b.getLsbD 6 = group ∧ b.getLsbD 5 = note ∧ (b.extractLsb' 2 3).toNat = budget ∧
      (b.extractLsb' 0 2).toFin = chain ∧
      b = (if stop then 0x80 else 0) ||| (if group then 0x40 else 0) ||| (if note then 0x20 else 0) ||| byte (4 * budget + chain.val) := by
  have all : ∀ (stop group note : Bool) (n : Fin 8) (chain : Fin 4),
      let b := flagsByte stop group note n.val chain
      b.getLsbD 7 = stop ∧ b.getLsbD 6 = group ∧ b.getLsbD 5 = note ∧ (b.extractLsb' 2 3).toNat = n.val ∧
        (b.extractLsb' 0 2).toFin = chain ∧
        b = (if stop then 0x80 else 0) ||| (if group then 0x40 else 0) ||| (if note then 0x20 else 0) |||
          byte (4 * n.val + chain.val) := by decide +kernel
  exact all stop group note ⟨budget, Nat.lt_succ_of_le h⟩ chain

/-- The ranges of R1 as R1 states them, budget and deadline apart. -/
theorem inRange_iff {b : PostBody} : b.inRange = true ↔
    (b.target = 0 ↔ b.kind = .broadcast) ∧ (b.kind = .modify → b.span.count = 1) ∧
      b.span.register.toNat + b.span.count - 1 ≤ 4095 ∧ b.data.length = dataWords b.kind b.span ∧
      (b.stopShort = true → b.kind = .read) := by
  have hone : b.span.count = 1 ↔ b.span.countM1 = 0 := by
    rw [Span.count, Nat.add_eq_right]
    exact ⟨fun h => BitVec.eq_of_toNat_eq h, fun h => by rw [h]; rfl⟩
  have hfits : b.span.fits = true ↔ b.span.register.toNat + b.span.count - 1 ≤ 4095 := by
    rw [Span.fits, decide_eq_true_iff, Span.count]
    exact Iff.rfl
  rw [PostBody.inRange, Bool.and_eq_true, Bool.and_eq_true, Bool.and_eq_true, Bool.and_eq_true, hfits, hone, and_assoc, and_assoc, and_assoc]
  cases hk : b.kind <;> cases b.stopShort <;> simp

/-- A POST body, byte by byte. -/
theorem PostBody.bytes_eq (b : PostBody) : b.bytes =
    b.kind.code.zeroExtend 8 :: flagsByte b.stopShort b.groupEnd b.note b.budget b.chain :: b.target.zeroExtend 8 ::
      b.span.word.extractLsb' 8 8 :: b.span.word.extractLsb' 0 8 :: b.tag.extractLsb' 8 8 :: b.tag.extractLsb' 0 8 ::
      byte b.deadline :: b.data.flatMap wordBytes := rfl

theorem parsePost_layout {body : List Byte} {b : PostBody} (h : parsePost body = some b) :
    body = b.bytes ∧ b.budget ≤ 7 ∧ b.deadline ≤ 255 ∧ b.inRange = true := by
  unfold parsePost at h
  split at h
  · split at h
    · cases h
    · next b0 b1 b2 b3 b4 b5 b6 b7 rest _ k hk =>
      dsimp only at h
      split at h
      · next hr =>
        obtain ⟨htgt, hlen, hin⟩ := hr
        cases h
        refine ⟨?_, Nat.le_of_lt_succ (b1.extractLsb' 2 3).isLt, Nat.le_of_lt_succ b7.isLt, hin⟩
        rw [PostBody.bytes_eq]
        dsimp only
        rw [← kindOf_iff.mp hk, flagsByte_split, zeroExtend_address htgt, word_spanOf, byte_toNat_self, flatMap_wordsOf _ hlen]
        simp only [wordOf, extract_append_high, extract_append_low]
      · cases h
  · cases h

theorem parsePost_bytes {b : PostBody} (hb : b.budget ≤ 7) (hd : b.deadline ≤ 255) (hr : b.inRange = true) :
    parsePost b.bytes = some b := by
  obtain ⟨h1, h2, h3, h4, h5, -⟩ := flagsByte_fields b.stopShort b.groupEnd b.note hb b.chain
  obtain ⟨ht, ht'⟩ := address_zeroExtend b.target
  have hdata : b.data.length = dataWords b.kind b.span := (inRange_iff.mp hr).2.2.2.1
  rw [PostBody.bytes_eq]
  unfold parsePost
  simp only [kindOf_iff.mpr rfl, wordOf_wordBytes, spanOf_word, wordsOf_flatMap, h1, h2, h3, h4, h5, ht', byte_toNat_of_lt (Nat.lt_succ_of_le hd)]
  exact if_pos ⟨ht, by rw [flatMap_wordBytes_length, hdata], hr⟩

/-- Settles O11: the parser reads each field from where the layout puts it. -/
theorem postBodiesInRange : Obligations.PostBodiesInRange := by
  unfold Obligations.PostBodiesInRange
  refine ⟨fun b hb => ⟨rfl, ?_⟩, fun body b => ⟨fun h => ?_, ?_⟩⟩
  · obtain ⟨-, -, -, -, -, hflags⟩ := flagsByte_fields b.stopShort b.groupEnd b.note hb b.chain
    rw [PostBody.bytes_eq, hflags]
    cases b.kind <;> rfl
  · obtain ⟨hbody, hbud, hdl, hin⟩ := parsePost_layout h
    obtain ⟨htgt, hone, hfits, hdata, hstop⟩ := inRange_iff.mp hin
    refine ⟨hbody, hbud, hdl, htgt, hone, hfits, ?_, hstop⟩
    rw [hdata]
    cases b.kind <;> rfl
  · rintro ⟨rfl, hbud, hdl, htgt, hone, hfits, hdata, hstop⟩
    refine parsePost_bytes hbud hdl (inRange_iff.mpr ⟨htgt, hone, hfits, ?_, hstop⟩)
    rw [hdata]
    cases b.kind <;> rfl

/-! ### The other requests (section 12.6) -/

theorem parseHandle_iff {body : List Byte} {i : SlotIx} {g : Byte} : parseHandle body = some (i, g) ↔ body = [byte i.val, g] := by
  constructor
  · intro h
    unfold parseHandle at h
    split at h
    · split at h
      · cases h; rw [byte_toNat_self]
      · cases h
    · cases h
  · rintro rfl
    have hi : (byte i.val).toNat = i.val := byte_toNat_of_lt (by omega)
    simp [parseHandle, hi]

theorem parseChain_iff {body : List Byte} {c : Fin 4} : parseChain body = some c ↔ body = [byte c.val] := by
  constructor
  · intro h
    unfold parseChain at h
    split at h
    · split at h
      · cases h; rw [byte_toNat_self]
      · cases h
    · cases h
  · rintro rfl
    have hc : (byte c.val).toNat = c.val := byte_toNat_of_lt (by omega)
    simp [parseChain, hc]

theorem parseChainSet_iff {body : List Byte} {c : Fin 4} {prio burst : Nat} : parseChainSet body = some (c, prio, burst) ↔
    body = [byte c.val, byte prio, byte burst] ∧ prio ≤ 3 ∧ 1 ≤ burst ∧ burst ≤ 8 := by
  constructor
  · intro h
    refine ⟨?_, parseChainSet_range h⟩
    unfold parseChainSet at h
    split at h
    · split at h
      · next d hd =>
        split at h
        · cases h
          cases parseChain_iff.mp hd
          rw [byte_toNat_self, byte_toNat_self]
        · cases h
      · cases h
    · cases h
  · rintro ⟨rfl, hp, hb⟩
    have hp' : (byte prio).toNat = prio := byte_toNat_of_lt (by omega)
    have hb' : (byte burst).toNat = burst := byte_toNat_of_lt (by omega)
    simp only [parseChainSet, parseChain_iff.mpr rfl, hp', hb']
    exact if_pos ⟨hp, hb⟩

theorem parseChainQuery_iff {body : List Byte} {c : Fin 4} {start : Nat} : parseChainQuery body = some (c, start) ↔
    body = [byte c.val, byte start] ∧ start ≤ 127 := by
  constructor
  · intro h
    unfold parseChainQuery at h
    split at h
    · split at h
      · next d hd =>
        split at h
        · next hs =>
          cases h
          cases parseChain_iff.mp hd
          exact ⟨by rw [byte_toNat_self], hs⟩
        · cases h
      · cases h
    · cases h
  · rintro ⟨rfl, hs⟩
    have hs' : (byte start).toNat = start := byte_toNat_of_lt (by omega)
    simp only [parseChainQuery, parseChain_iff.mpr rfl, hs']
    exact if_pos hs

theorem targetIx_iff {a : BitVec 6} {t : Fin 63} : targetIx a = some t ↔ a.toNat = t.val + 1 := by
  unfold targetIx
  split
  · rw [Option.some_inj, Fin.ext_iff]
    dsimp only
    omega
  · next h =>
    refine iff_of_false (by simp) fun e => h ?_
    omega

theorem parseTarget_iff {body : List Byte} {t : Fin 63} : parseTarget body = some t ↔ body = [byte (t.val + 1)] := by
  have low : ∀ {a : Byte}, a.toNat ≤ 63 → (a.extractLsb' 0 6).toNat = a.toNat := fun h => by
    rw [BitVec.extractLsb'_toNat, Nat.shiftRight_zero]
    omega
  constructor
  · intro h
    unfold parseTarget at h
    split at h
    · split at h
      · next a ha =>
        have := targetIx_iff.mp h
        rw [low ha] at this
        rw [← this, byte_toNat_self]
      · cases h
    · cases h
  · rintro rfl
    have ht : (byte (t.val + 1)).toNat = t.val + 1 := byte_toNat_of_lt (by omega)
    have hle : (byte (t.val + 1)).toNat ≤ 63 := by omega
    simp only [parseTarget, if_pos hle]
    exact targetIx_iff.mpr ((low hle).trans ht)

theorem parsePollIx_iff {body : List Byte} {i : PollIx} : parsePollIx body = some i ↔ body = [byte i.val] := by
  constructor
  · intro h
    unfold parsePollIx at h
    split at h
    · split at h
      · cases h; rw [byte_toNat_self]
      · cases h
    · cases h
  · rintro rfl
    have hi : (byte i.val).toNat = i.val := byte_toNat_of_lt (by omega)
    simp [parsePollIx, hi]

theorem parseResvIx_iff {body : List Byte} {e : ResvIx} : parseResvIx body = some e ↔ body = [byte e.val] := by
  constructor
  · intro h
    unfold parseResvIx at h
    split at h
    · split at h
      · cases h; rw [byte_toNat_self]
      · cases h
    · cases h
  · rintro rfl
    have he : (byte e.val).toNat = e.val := byte_toNat_of_lt (by omega)
    simp [parseResvIx, he]

theorem fits_iff {sp : Span} : sp.fits = true ↔ sp.register.toNat + sp.count - 1 ≤ 4095 := by
  rw [Span.fits, decide_eq_true_iff, Span.count]
  exact Iff.rfl

theorem address_ne_zero {t : BitVec 6} (h : t ≠ 0) : 1 ≤ (t.zeroExtend 8 : Byte).toNat := by
  have hne : t.toNat ≠ 0 := fun e => h (BitVec.eq_of_toNat_eq e)
  have hlt := t.isLt
  simp only [BitVec.truncate_eq_setWidth, BitVec.toNat_setWidth]
  omega

theorem parsePollDef_iff {body : List Byte} {d : PollDef} : parsePollDef body = some d ↔
    body = d.bytes ∧ d.target ≠ 0 ∧ d.span.count ≤ 4 ∧ d.span.register.toNat + d.span.count - 1 ≤ 4095 ∧
      1 ≤ d.period ∧ d.period ≤ 250 ∧ d.phase < d.period := by
  constructor
  · intro h
    obtain ⟨htgt, hcount, hper⟩ := parsePollDef_range h
    refine ⟨?_, htgt, hcount, ?_, hper⟩ <;> unfold parsePollDef at h <;> split at h
    · dsimp only at h
      split at h
      · next hr =>
        cases h
        rw [PollDef.bytes]
        dsimp only
        rw [zeroExtend_address hr.2.1, word_spanOf, wordBytes_wordOf]
        change _ = [_, _, _, byte _, byte _]
        rw [byte_toNat_self, byte_toNat_self]
      · cases h
    · cases h
    · dsimp only at h
      split at h
      · next hr =>
        cases h
        exact fits_iff.mp hr.2.2.2.1
      · cases h
    · cases h
  · rintro ⟨rfl, htgt, hcount, hfits, hp, hp', hph⟩
    obtain ⟨ht, ht'⟩ := address_zeroExtend d.target
    have hper : (byte d.period).toNat = d.period := byte_toNat_of_lt (by omega)
    have hphase : (byte d.phase).toNat = d.phase := byte_toNat_of_lt (by omega)
    change parsePollDef [_, _, _, byte d.period, byte d.phase] = some d
    simp only [parsePollDef, wordOf_wordBytes, spanOf_word, ht', hper, hphase]
    exact if_pos ⟨address_ne_zero htgt, ht, hcount, fits_iff.mpr hfits, hp, hp', hph⟩

theorem parsePollChange_iff {body : List Byte} {i : PollIx} {d : PollDef} : parsePollChange body = some (i, d) ↔
    ∃ rest : List Byte, body = byte i.val :: rest ∧ parsePollDef rest = some d := by
  constructor
  · intro h
    unfold parsePollChange at h
    split at h
    · next b rest =>
      split at h
      · next j e hj he =>
        cases h
        cases parsePollIx_iff.mp hj
        exact ⟨rest, rfl, he⟩
      · cases h
    · cases h
  · rintro ⟨rest, rfl, hd⟩
    simp only [parsePollChange, parsePollIx_iff.mpr rfl, hd]

theorem flagOf_iff {b : Byte} {f : Bool} : flagOf b = some f ↔ b = if f then 1 else 0 := by
  cases f <;> revert b <;> decide

theorem addresses_any {base mask : BitVec 6} : addresses.any (matches6 base mask) = true ↔ ∃ t : BitVec 6, matches6 base mask t = true := by
  rw [List.any_eq_true]
  exact ⟨fun ⟨t, _, h⟩ => ⟨t, h⟩, fun ⟨t, h⟩ => ⟨t, mem_addresses (matches6_ne_zero h), h⟩⟩

theorem parseClaim_iff {body : List Byte} {base mask : BitVec 6} {priv : Bool} {lease : Nat} :
    parseClaim body = some (base, mask, priv, lease) ↔
      body = [base.zeroExtend 8, mask.zeroExtend 8, if priv then 1 else 0, byte lease] ∧ 1 ≤ lease ∧ lease ≤ 255 ∧
        ∃ t : BitVec 6, matches6 base mask t = true := by
  constructor
  · intro h
    obtain ⟨h1, h2⟩ := parseClaim_lease h
    unfold parseClaim at h
    split at h
    · split at h
      · cases h
      · next f hf =>
        dsimp only at h
        split at h
        · next hr =>
          obtain ⟨hb, hm, -, hany⟩ := hr
          cases h
          rw [zeroExtend_address hb, zeroExtend_address hm, ← flagOf_iff.mp hf, byte_toNat_self]
          exact ⟨rfl, h1, h2, addresses_any.mp hany⟩
        · cases h
    · cases h
  · rintro ⟨rfl, h1, h2, hany⟩
    obtain ⟨hb, hb'⟩ := address_zeroExtend base
    obtain ⟨hm, hm'⟩ := address_zeroExtend mask
    have hl : (byte lease).toNat = lease := byte_toNat_of_lt (by omega)
    simp only [parseClaim, flagOf_iff.mpr rfl, hb', hm', hl]
    exact if_pos ⟨hb, hm, h1, addresses_any.mpr hany⟩

/-! ### PROPOSE (R144, section 12.6) -/

theorem parseRanged_iff {lo hi : Nat} (hhi : hi ≤ 255) {f : Nat → Change} {vals : List Byte} {c : Change} :
    parseRanged lo hi f vals = some c ↔ ∃ n : Nat, c = f n ∧ vals = [byte n] ∧ lo ≤ n ∧ n ≤ hi := by
  constructor
  · intro h
    unfold parseRanged at h
    split at h
    · split at h
      · next v hr => cases h; exact ⟨v.toNat, rfl, by rw [byte_toNat_self], hr⟩
      · cases h
    · cases h
  · rintro ⟨n, rfl, rfl, hn⟩
    have hn' : (byte n).toNat = n := byte_toNat_of_lt (by omega)
    simp only [parseRanged, hn']
    exact if_pos hn

theorem vector4_eta {α : Type} (q : Vector α 4) : #v[q[0], q[1], q[2], q[3]] = q := by
  ext i hi
  interval_cases i <;> rfl

theorem parseQuotas_iff {vals : List Byte} {c : Change} : parseQuotas vals = some c ↔
    ∃ q : Vector Nat 4, c = .quotas q ∧ vals = [byte q[0], byte q[1], byte q[2], byte q[3]] ∧ q[0] + q[1] + q[2] + q[3] ≤ 128 := by
  constructor
  · intro h
    unfold parseQuotas at h
    split at h
    · split at h
      · next x y z w hr =>
        cases h
        refine ⟨_, rfl, ?_, hr⟩
        change _ = [byte x.toNat, byte y.toNat, byte z.toNat, byte w.toNat]
        simp only [byte_toNat_self]
      · cases h
    · cases h
  · rintro ⟨q, rfl, rfl, hq⟩
    have h0 : (byte q[0]).toNat = q[0] := byte_toNat_of_lt (by omega)
    have h1 : (byte q[1]).toNat = q[1] := byte_toNat_of_lt (by omega)
    have h2 : (byte q[2]).toNat = q[2] := byte_toNat_of_lt (by omega)
    have h3 : (byte q[3]).toNat = q[3] := byte_toNat_of_lt (by omega)
    simp only [parseQuotas, h0, h1, h2, h3, vector4_eta]
    exact if_pos hq

theorem rateOf_iff {b : Byte} {r : Rate} : rateOf b = some r ↔ b = r.code := by
  cases r <;> revert b <;> decide

theorem parseRate_iff {vals : List Byte} {c : Change} : parseRate vals = some c ↔ ∃ r : Rate, c = .fieldRate r ∧ vals = [r.code] := by
  constructor
  · intro h
    unfold parseRate at h
    split at h
    · obtain ⟨r, hr, rfl⟩ := Option.map_eq_some_iff.mp h
      exact ⟨r, rfl, by rw [rateOf_iff.mp hr]⟩
    · cases h
  · rintro ⟨r, rfl, rfl⟩
    simp only [parseRate, rateOf_iff.mpr rfl, Option.map_some]

theorem parseBare_iff {c d : Change} {vals : List Byte} : parseBare c vals = some d ↔ d = c ∧ vals = [] := by
  unfold parseBare
  split
  · next h => simp [h, eq_comm]
  · next h => simp [h]

theorem parseChange_bytes {c : Change} (h : c.InRange) : parseChange c.bytes = some c := by
  cases c with
  | sweepLength ms => exact (parseRanged_iff (by decide)).mpr ⟨ms, rfl, rfl, h⟩
  | pollWindow w => exact (parseRanged_iff (by decide)).mpr ⟨w, rfl, rfl, h⟩
  | quotas q => exact parseQuotas_iff.mpr ⟨q, rfl, rfl, h⟩
  | fieldRate r => exact parseRate_iff.mpr ⟨r, rfl, rfl⟩
  | stop | start | restart => rfl

theorem parseChange_layout {body : List Byte} {c : Change} (h : parseChange body = some c) : body = c.bytes := by
  unfold parseChange at h
  split at h
  · cases h
  · split_ifs at h with h1 h2 h3 h4 h5 h6 h7
    · obtain ⟨n, rfl, rfl, -⟩ := (parseRanged_iff (by decide)).mp h; rw [h1]; rfl
    · obtain ⟨n, rfl, rfl, -⟩ := (parseRanged_iff (by decide)).mp h; rw [h2]; rfl
    · obtain ⟨q, rfl, rfl, -⟩ := parseQuotas_iff.mp h; rw [h3]; rfl
    · obtain ⟨r, rfl, rfl⟩ := parseRate_iff.mp h; rw [h4]; rfl
    · obtain ⟨rfl, rfl⟩ := parseBare_iff.mp h; rw [h5]; rfl
    · obtain ⟨rfl, rfl⟩ := parseBare_iff.mp h; rw [h6]; rfl
    · obtain ⟨rfl, rfl⟩ := parseBare_iff.mp h; rw [h7]; rfl

/-- Settles O12: form by form, the layout and the ranges. -/
theorem requestBodiesInRange : Obligations.RequestBodiesInRange := by
  unfold Obligations.RequestBodiesInRange
  refine ⟨fun _ => rfl, fun c => ?bytes, fun _ _ _ => parseHandle_iff, fun _ _ => parseChain_iff, fun _ _ _ _ => parseChainSet_iff,
    fun _ _ _ => parseChainQuery_iff, fun _ _ => parseTarget_iff, fun _ _ => parsePollIx_iff, fun _ _ => parsePollDef_iff,
    fun _ _ _ => parsePollChange_iff, fun _ _ _ _ _ => parseClaim_iff, fun _ _ => parseResvIx_iff, fun body c => ⟨fun h => ?_, ?_⟩⟩
  case bytes =>
    cases c with
    | fieldRate r => cases r <;> rfl
    | _ => rfl
  · refine ⟨parseChange_layout h, ?_⟩
    have hr := parseChange_range h
    cases c <;> exact hr
  · rintro ⟨rfl, hr⟩
    refine parseChange_bytes ?_
    cases c <;> exact hr

end Sys2Proof.Machine

/-! PROOF. The requests of one record (01): the checks of a handle (O14), PEEK and CANCEL (O15), and how a slot leaves the list that
holds it (O16). -/

namespace Sys2Proof.Machine

variable {s : State} {p : Port} {seq : Byte} {body : List Byte} {i : SlotIx} {g : Byte} {r : Record}

/-! ### The checks of a handle (R6) -/

section
variable {f : SlotIx → Record → State → Reply} (ha : s.attached p = true)
include ha

theorem withHandle_badfield (h : parseHandle body = none) : withHandle p body f s = refuse .badfield s := by
  simp only [withHandle, whenAttached_true s _ ha, h]

variable (h : parseHandle body = some (i, g))
include h

theorem withHandle_free (hr : s.record i = none) : withHandle p body f s = refuse .stale s := by
  simp only [withHandle, whenAttached_true s _ ha, h, hr]

variable (hr : s.record i = some r)
include hr

theorem withHandle_stale (hst : r.state = .orphaned ∨ r.owner = none ∨ s.slots[i].gen ≠ g) :
    withHandle p body f s = refuse .stale s := by
  simp only [withHandle, whenAttached_true s _ ha, h, hr]
  exact if_pos hst

variable (ho : r.state ≠ .orphaned) (hn : r.owner ≠ none) (hg : s.slots[i].gen = g)
include ho hn hg

theorem withHandle_checked : withHandle p body f s = if r.owner ≠ some p then refuse .notowner s else f i r s := by
  simp only [withHandle, whenAttached_true s _ ha, h, hr]
  exact if_neg (not_or.mpr ⟨ho, not_or.mpr ⟨hn, not_not.mpr hg⟩⟩)

theorem withHandle_notOwner (hp : r.owner ≠ some p) : withHandle p body f s = refuse .notowner s := by
  rw [withHandle_checked ha h hr ho hn hg, if_pos hp]

end

/-- A record that its owner reaches by its handle. -/
theorem withHandle_reached {f : SlotIx → Record → State → Reply} (ha : s.attached p = true) (hr : s.record i = some r)
    (hp : r.owner = some p) (ho : r.state ≠ .orphaned) : withHandle p [byte i.val, s.slots[i].gen] f s = f i r s := by
  rw [withHandle_checked ha (parseHandle_iff.mpr rfl) hr ho (by simp [hp]) rfl, if_neg (not_not.mpr hp)]

/-- Settles O14: PEEK and CANCEL share the checks of a handle. -/
theorem handleChecks : Obligations.HandleChecks := by
  unfold Obligations.HandleChecks
  rintro p seq body c s hc ⟨ht, ha⟩
  obtain ⟨f, he⟩ : ∃ f, exec c s = takeRequest p seq (withHandle p body f) s := by
    rcases hc with rfl | rfl <;> exact ⟨_, rfl⟩
  refine ⟨fun h => refused_of_reply he ht (withHandle_badfield ha h), fun i g h => ⟨fun hr => ?_, fun r hr => ⟨fun hst => ?_, ?_⟩⟩⟩
  · exact refused_of_reply he ht (withHandle_free ha h hr)
  · exact refused_of_reply he ht (withHandle_stale ha h hr hst)
  · exact fun ho hn hp hg => refused_of_reply he ht (withHandle_notOwner ha h hr ho hn hg hp)

/-! ### PEEK and CANCEL (R11 to R15) -/

theorem peekRecord_damaged (h : r.state = .damaged) : peekRecord i r s = ok [5] s := by
  rw [peekRecord, if_neg (by simp [h]), peekImage, h]
  rfl

theorem peekRecord_fields (h : r.state ≠ .damaged) (hm : s.slots[i].codeMatches = true) : peekRecord i r s = ok
    [r.state.code, byte r.attempts, byte r.budgetLeft, r.lastOutcome.code Outcome.code, r.haltReason.code HaltReason.code] s := by
  rw [peekRecord, if_neg (by rw [hm]; simp), peekImage]
  cases hs : r.state with
  | damaged => exact absurd hs h
  | _ => rfl

theorem peekRecord_mismatch (h : r.state ≠ .damaged) (hm : s.slots[i].codeMatches = false) :
    peekRecord i r s = refuse .faulted (storeFault (damageSlot i s)) := if_pos ⟨h, by rw [hm]; rfl⟩

theorem setCancelPending_set (h : r.cancelPending = true) : setCancelPending i r s = s := if_pos h

theorem setCancelPending_clear (h : r.cancelPending = false) :
    setCancelPending i r s = putRecord i { r with cancelPending := true } s := if_neg (by simp [h])

theorem cancelRecord_waiting (h : r.state = .queued ∨ r.state = .halted) :
    cancelRecord i r s = ok [] (offerBus (retire i r .cancelled s)) := by
  rcases h with h | h <;> simp only [cancelRecord, h]

theorem cancelRecord_active (h : r.state = .active) : cancelRecord i r s = ok [] (setCancelPending i r s) := by
  simp only [cancelRecord, h]

theorem cancelRecord_ended (h : r.state = .done ∨ r.state = .damaged) : cancelRecord i r s = refuse .state s := by
  rcases h with h | h <;> simp only [cancelRecord, h]

theorem peek_answered {x : Reply} (hs : s.serves p) (hr : s.record i = some r) (hp : r.owner = some p) (ho : r.state ≠ .orphaned)
    (h : peekRecord i r s = x) : Answered (.peek p seq [byte i.val, s.slots[i].gen]) s p seq x.code x.body x.state :=
  answered_of_reply rfl hs.1 (f := peekReply p _) ((withHandle_reached hs.2 hr hp ho).trans h)

theorem cancel_answered {x : Reply} (hs : s.serves p) (hr : s.record i = some r) (hp : r.owner = some p) (ho : r.state ≠ .orphaned)
    (h : cancelRecord i r s = x) : Answered (.cancel p seq [byte i.val, s.slots[i].gen]) s p seq x.code x.body x.state :=
  answered_of_reply rfl hs.1 (f := cancelReply p _) ((withHandle_reached hs.2 hr hp ho).trans h)

/-- Settles O15: both requests by the state of the record they reach. -/
theorem peekAndCancel : Obligations.PeekAndCancel := by
  unfold Obligations.PeekAndCancel
  refine ⟨⟨rfl, rfl, rfl, fun _ _ _ _ => ⟨rfl, rfl, rfl⟩⟩, fun p seq i r s hs hr hp ho => ⟨fun h => ?_, fun h hm => ?_, fun h hm => ?_⟩,
    fun p seq i r s hs hr hp => ⟨fun h => ?_, fun h hc => ?_, fun h hc => ?_, fun h => ?_⟩⟩
  · exact peek_answered hs hr hp ho (peekRecord_damaged h)
  · exact peek_answered hs hr hp ho (peekRecord_fields h hm)
  · exact peek_answered hs hr hp ho (peekRecord_mismatch h hm)
  · exact cancel_answered hs hr hp (by rcases h with h | h <;> simp [h]) (cancelRecord_waiting h)
  · have hx := cancelRecord_active (i := i) (s := s) h
    rw [setCancelPending_set hc] at hx
    exact cancel_answered hs hr hp (by simp [h]) hx
  · have hx := cancelRecord_active (i := i) (s := s) h
    rw [setCancelPending_clear hc] at hx
    exact cancel_answered hs hr hp (by simp [h]) hx
  · exact cancel_answered hs hr hp (by rcases h with h | h <;> simp [h]) (cancelRecord_ended h)

/-! ### Leaving a list (R19, R28, R130, R158) -/

theorem remove_eq (i : SlotIx) (ch : Chain) : ch.remove i =
    if i ∈ ch.list then
      { ch with list := ch.list.filter (· != i), age := if ch.list.filter (· != i) = [] then 0 else ch.age }
    else ch := by
  simp only [Chain.remove, List.isEmpty_iff]

theorem unlist_chain (i : SlotIx) (c : ChainIx) : (unlist i s).chains[c] = s.chains[c].remove i := by rw [unlist_chains, tab_get]

theorem unlist_report (i : SlotIx) (p : Port) :
    (unlist i s).reports[p] = { s.reports[p] with queue := s.reports[p].queue.filter (· != i) } := by
  rw [unlist_reports, tab_get]

theorem unlist_frame (i : SlotIx) : unlist i s = { s with chains := (unlist i s).chains, reports := (unlist i s).reports } := by
  simp only [unlist]

theorem putRecord_slot_self : (putRecord i r s).slots[i] = { gen := s.slots[i].gen, record := some r, codeMatches := true } :=
  modAt_get_self _ i _

theorem putRecord_slot_ne {j : SlotIx} (h : j ≠ i) : (putRecord i r s).slots[j] = s.slots[j] := modAt_get_ne _ _ h

theorem enqueueNote_report {q : Port} (ha : s.attached p = true) : (enqueueNote p i s).reports[q] =
    if q = p then { s.reports[p] with queue := s.reports[p].queue ++ [i], marks := s.reports[p].marks ||| Deferred.report.bit }
    else s.reports[q] := by
  rw [enqueueNote, mark_report]
  dsimp only
  rw [modAt_get]
  by_cases hq : q = p
  · subst hq
    simp only [if_true]
    exact if_pos ⟨trivial, ha⟩
  · simp [hq]

/-- Retirement of an owned record, step by step. -/
theorem retire_owned (hp : r.owner = some p) (k : EndKind) :
    retire i r k s = enqueueNote p i (putRecord i (r.retired k s.sweep) (unlist i s)) := by
  simp only [retire, hp, unlist_sweep, Record.retired]

theorem enqueueNote_slots : (enqueueNote p i s).slots = s.slots := by
  unfold enqueueNote mark; split <;> rfl

theorem enqueueNote_chains : (enqueueNote p i s).chains = s.chains := by
  unfold enqueueNote mark; split <;> rfl

theorem damageSlot_held (h : s.record i = some r) : damageSlot i s = putRecord i { r with state := .damaged } (unlist i s) := by
  simp only [damageSlot, h]

theorem storeFault_frame (u : State) :
    storeFault u = { u with reports := (storeFault u).reports, sched := .faulted, grant := none } := rfl

theorem storeFault_report (u : State) (p : Port) : (storeFault u).reports[p] =
    { u.reports[p] with pending := if u.attached p then u.reports[p].pending ||| Cause.fault.bit else u.reports[p].pending } := by
  rw [storeFault, raiseAll_report]
  change (if u.attached p = true then _ else _) = _
  split <;> rfl

/-- Settles O16: retirement, unlisting, freeing and the store fault, table by table. -/
theorem slotsLeaveTheirLists : Obligations.SlotsLeaveTheirLists := by
  unfold Obligations.SlotsLeaveTheirLists
  refine ⟨fun i r k p s _ hp ha => ?retired, fun i k s => ⟨retireSlot_free s k, fun r => retireSlot_held s k⟩,
    fun i s => ⟨unlist_frame i, fun c => ?_, unlist_report i, rfl, rfl, fun r hr => ?_⟩, fun i r s hr => ?faulted⟩
  case retired =>
    have hx := retire_owned (s := s) (i := i) hp k
    have ha' : (putRecord i (r.retired k s.sweep) (unlist i s)).attached p = true :=
      (((store_unlist s i).trans (store_putRecord _ i _)).attached p).trans ha
    refine ⟨store_retire s i r k, ?_, fun j hj => ?_, fun c => ?_, ?_, fun q hq => ?_⟩
    · rw [hx, enqueueNote_slots, putRecord_slot_self, unlist_slots]; rfl
    · rw [hx, enqueueNote_slots, putRecord_slot_ne hj, unlist_slots]
    · rw [hx, enqueueNote_chains, putRecord_chains, unlist_chain, remove_eq]
    · rw [hx, enqueueNote_report ha', if_pos rfl, putRecord_reports, unlist_report]
    · rw [hx, enqueueNote_report ha', if_neg hq, putRecord_reports, unlist_report]
  case faulted =>
    rw [damageSlot_held hr]
    refine ⟨?_, ?_, fun j hj => ?_, fun c => ?_, fun p => ?_⟩
    · rw [storeFault_frame, unlist_frame]; rfl
    · rw [storeFault_slots, putRecord_slot_self, unlist_slots]
    · rw [storeFault_slots, putRecord_slot_ne hj, unlist_slots]
    · rw [storeFault_chains, putRecord_chains, unlist_chain, remove_eq]
    · rw [storeFault_report, putRecord_reports, unlist_report]; rfl
  · rw [unlist_chain, remove_eq]
  · rw [damageSlot_held hr, putRecord, unlist_slots]

end Sys2Proof.Machine

/-! PROOF. The requests of one chain (02): its settings (O17), RETRY and DROP (O18), FLUSH (O19), and CHAIN QUERY with TARGET QUERY
(O20). -/

namespace Sys2Proof.Machine

variable {s : State} {p : Port} {seq : Byte} {body : List Byte} {c : Fin 4} {i : SlotIx} {r : Record}

/-! ### The checks of R35 -/

section
variable (ha : s.attached p = true)
include ha

theorem withChain_badfield {f : ChainIx → State → Reply} (h : parseChain body = none) : withChain p body f s = refuse .badfield s := by
  simp only [withChain, whenAttached_true s _ ha, h]

theorem withChain_named {f : ChainIx → State → Reply} (h : parseChain body = some c) : withChain p body f s = f (chainIx p c) s := by
  simp only [withChain, whenAttached_true s _ ha, h]

theorem chainSetReply_badfield (h : parseChainSet body = none) : chainSetReply p body s = refuse .badfield s := by
  simp only [chainSetReply, whenAttached_true s _ ha, h]

theorem chainSetReply_set {prio burst : Nat} (h : parseChainSet body = some (c, prio, burst)) : chainSetReply p body s =
    ok [] (modChain (chainIx p c) (fun ch => { ch with priority := prio, burst := burst }) s) := by
  simp only [chainSetReply, whenAttached_true s _ ha, h]

end

/-- Settles O17: each setting is the reply of a checked request. -/
theorem chainSettings : Obligations.ChainSettings := by
  unfold Obligations.ChainSettings
  refine ⟨fun p c => ⟨rfl, chainPort_chainIx p c⟩, fun p r hp => by rw [Record.home, hp]; rfl, fun p seq body s ⟨ht, ha⟩ =>
    ⟨fun c prio burst h => ?_, fun c h => ⟨?_, ?_⟩, fun h => ?_, fun h => ⟨?_, ?_⟩⟩⟩
  · exact answered_of_reply rfl ht (chainSetReply_set ha h)
  · exact answered_of_reply rfl ht (f := chainPauseReply p body) (withChain_named ha h)
  · exact answered_of_reply rfl ht (f := chainGoReply p body) (withChain_named ha h)
  · exact refused_of_reply rfl ht (chainSetReply_badfield ha h)
  · exact refused_of_reply rfl ht (f := chainPauseReply p body) (withChain_badfield ha h)
  · exact refused_of_reply rfl ht (f := chainGoReply p body) (withChain_badfield ha h)

/-! ### RETRY and DROP (R38, R39) -/

theorem whenHalted_head {d : ChainIx} {f : SlotIx → Record → State → Reply} (hh : s.head d = some (i, r)) (hr : r.state = .halted) :
    whenHalted d f s = f i r s := by
  simp only [whenHalted, hh, hr, if_true]

theorem whenHalted_other {d : ChainIx} {f : SlotIx → Record → State → Reply} (h : s.chainState d ≠ .halted) :
    whenHalted d f s = refuse .state s := by
  unfold whenHalted
  split
  · next i r hh => exact if_neg fun hr => h (chainState_eq_halted hh hr)
  · rfl

/-- Settles O18: both requests by the state of the chain they name. -/
theorem chainRetryAndDrop : Obligations.ChainRetryAndDrop := by
  unfold Obligations.ChainRetryAndDrop
  refine fun p seq c s ⟨ht, ha⟩ => ⟨fun i r hh hr => ⟨?_, ?_⟩, fun h => ⟨?_, ?_⟩, fun body h => ⟨?_, ?_⟩⟩
  · exact answered_of_reply rfl ht (f := chainRetryReply p _) ((withChain_named ha (parseChain_iff.mpr rfl)).trans (whenHalted_head hh hr))
  · exact answered_of_reply rfl ht (f := chainDropReply p _) ((withChain_named ha (parseChain_iff.mpr rfl)).trans (whenHalted_head hh hr))
  · exact refused_of_reply rfl ht (f := chainRetryReply p _) ((withChain_named ha (parseChain_iff.mpr rfl)).trans (whenHalted_other h))
  · exact refused_of_reply rfl ht (f := chainDropReply p _) ((withChain_named ha (parseChain_iff.mpr rfl)).trans (whenHalted_other h))
  · exact refused_of_reply rfl ht (f := chainRetryReply p body) (withChain_badfield ha h)
  · exact refused_of_reply rfl ht (f := chainDropReply p body) (withChain_badfield ha h)

/-! ### FLUSH (R40) -/

section
variable {d : ChainIx}

theorem flushChain_empty (hh : s.head d = none) : flushChain d s = (0, false, s) := by
  simp only [flushChain, hh]

theorem flushChain_waiting (hh : s.head d = some (i, r)) (hr : r.state ≠ .active) :
    flushChain d s = (s.chains[d].list.length, false, retireAll .cancelled s.chains[d].list s) := by
  simp only [flushChain, hh, if_neg hr]

theorem flushChain_active (hh : s.head d = some (i, r)) (hr : r.state = .active) : flushChain d s =
    (s.chains[d].list.tail.length, true, retireAll .cancelled s.chains[d].list.tail (setCancelPending i r s)) := by
  simp only [flushChain, hh, if_pos hr]

end

theorem chainFlushReply_named (ha : s.attached p = true) {x : Nat × Bool × State} (h : flushChain (chainIx p c) s = x) :
    chainFlushReply p [byte c.val] s = ok [byte x.1, flagByte x.2.1] x.2.2 := by
  subst h
  exact withChain_named ha (parseChain_iff.mpr rfl)

/-- Settles O19: by the head of the chain flushed. -/
theorem chainFlushRetires : Obligations.ChainFlushRetires := by
  unfold Obligations.ChainFlushRetires
  refine fun p seq c s ⟨ht, ha⟩ => ⟨fun hh => ?_, fun i r hh => ⟨fun hr => ?_, fun hr => ?_⟩, fun body h => ?_⟩
  · exact answered_of_reply rfl ht (chainFlushReply_named ha (flushChain_empty hh))
  · exact answered_of_reply rfl ht (chainFlushReply_named ha (flushChain_waiting hh hr))
  · exact answered_of_reply rfl ht (chainFlushReply_named ha (flushChain_active hh hr))
  · exact refused_of_reply rfl ht (f := chainFlushReply p body) (withChain_badfield ha h)

/-! ### CHAIN QUERY and TARGET QUERY (R41, R59) -/

theorem mismatched_eq_nil_iff {d : ChainIx} : s.mismatched d = [] ↔ ∀ i ∈ s.chains[d].list, s.slots[i].codeMatches = true := by
  simp only [State.mismatched, List.filter_eq_nil_iff, Bool.not_eq_true', Bool.not_eq_false]

section
variable (ha : s.attached p = true)
include ha

theorem chainQueryReply_badfield (h : parseChainQuery body = none) : chainQueryReply p body s = refuse .badfield s := by
  simp only [chainQueryReply, whenAttached_true s _ ha, h]

theorem chainQueryReply_verified {start : Nat} (h : parseChainQuery body = some (c, start)) (hm : s.mismatched (chainIx p c) = []) :
    chainQueryReply p body s = ok (chainImage s (chainIx p c) start) s := by
  simp only [chainQueryReply, whenAttached_true s _ ha, h, if_pos hm]

theorem chainQueryReply_mismatch {start : Nat} (h : parseChainQuery body = some (c, start)) (hm : s.mismatched (chainIx p c) ≠ []) :
    chainQueryReply p body s =
      refuse .faulted (storeFault ((s.mismatched (chainIx p c)).foldl (fun s i => damageSlot i s) s)) := by
  simp only [chainQueryReply, whenAttached_true s _ ha, h, if_neg hm]

theorem targetQueryReply_badfield (h : parseTarget body = none) : targetQueryReply p body s = refuse .badfield s := by
  simp only [targetQueryReply, whenAttached_true s _ ha, h]

theorem targetQueryReply_entry {t : Fin 63} (h : parseTarget body = some t) :
    targetQueryReply p body s = ok (targetImage s.targets[t]) s := by
  simp only [targetQueryReply, whenAttached_true s _ ha, h]

end

/-- Settles O20: a chain is verified exactly when no slot of it mismatches. -/
theorem chainAndTargetQueries : Obligations.ChainAndTargetQueries := by
  unfold Obligations.ChainAndTargetQueries
  refine ⟨⟨rfl, rfl⟩, fun p seq body s ⟨ht, ha⟩ => ⟨fun c start h => ⟨fun hm => ?_, fun ⟨i, hi, hm⟩ => ?_⟩, fun t h => ?_, fun h => ?_,
    fun h => ?_⟩⟩
  · exact answered_of_reply rfl ht (chainQueryReply_verified ha h (mismatched_eq_nil_iff.mpr hm))
  · refine answered_of_reply rfl ht (chainQueryReply_mismatch ha h fun hn => ?_)
    rw [mismatched_eq_nil_iff.mp hn i hi] at hm
    cases hm
  · exact answered_of_reply rfl ht (targetQueryReply_entry ha h)
  · exact refused_of_reply rfl ht (chainQueryReply_badfield ha h)
  · exact refused_of_reply rfl ht (targetQueryReply_badfield ha h)

end Sys2Proof.Machine

/-! PROOF. The Poll Plan and snapshots (06): the requests of its entries (O21, O22), SNAP READ (O23), and what a poll outcome writes
(O24). -/

namespace Sys2Proof.Machine

variable {s : State} {p : Port} {seq : Byte} {body : List Byte} {i : PollIx} {b : PollBody} {d : PollDef}

/-! ### Searches of a table -/

/-- The search of a table in ascending order finds the lowest entry with a property. -/
theorem find_finRange_eq_some_iff {n : Nat} {q : Fin n → Bool} {i : Fin n} :
    (List.finRange n).find? q = some i ↔ q i = true ∧ ∀ j : Fin n, j < i → q j = false := by
  rw [List.find?_eq_some_iff_getElem]
  refine and_congr_right fun _ => ⟨fun ⟨k, hk, hki, hbelow⟩ j hj => ?_, fun h => ⟨i.val, by simp, by simp, fun j hj => ?_⟩⟩
  · rw [List.getElem_finRange] at hki
    subst hki
    have := hbelow j.val hj
    rw [List.getElem_finRange] at this
    simpa using this
  · rw [List.getElem_finRange]
    have := h ⟨j, by omega⟩ hj
    simpa using this

theorem find_finRange_eq_none_iff {n : Nat} {q : Fin n → Bool} : (List.finRange n).find? q = none ↔ ∀ j : Fin n, q j = false := by
  simp [List.find?_eq_none]

theorem isNone_eq_false_iff {α : Type} {x : Option α} : x.isNone = false ↔ x ≠ none := by cases x <;> simp

theorem lowestFreePoll_eq_none_iff : s.lowestFreePoll = none ↔ ∀ j : PollIx, s.polls[j].body ≠ none := by
  rw [State.lowestFreePoll, find_finRange_eq_none_iff]
  exact forall_congr' fun _ => isNone_eq_false_iff

theorem lowestFreePoll_eq_some_iff :
    s.lowestFreePoll = some i ↔ s.polls[i].body = none ∧ ∀ j : PollIx, j < i → s.polls[j].body ≠ none := by
  rw [State.lowestFreePoll, find_finRange_eq_some_iff, Option.isNone_iff_eq_none]
  exact and_congr_right fun _ => forall₂_congr fun _ _ => isNone_eq_false_iff

/-- The entry an EXISTS answer names has the definition's identity (R97, R166). -/
theorem sameIdentity_spec {x : Option PollIx} {j : PollIx} (h : s.sameIdentity d x = some j) :
    some j ≠ x ∧ ∃ b : PollBody, s.polls[j].body = some b ∧ b.target = d.target ∧ b.span = d.span := by
  obtain ⟨hj, -⟩ := find_finRange_eq_some_iff.mp h
  rw [Bool.and_eq_true, bne_iff_ne] at hj
  obtain ⟨hne, hid⟩ := hj
  refine ⟨hne, ?_⟩
  cases hb : s.polls[j].body with
  | none => rw [hb] at hid; cases hid
  | some b =>
    rw [hb] at hid
    simp only [Bool.and_eq_true, beq_iff_eq] at hid
    exact ⟨b, rfl, hid⟩

/-! ### POLL CREATE and POLL CHANGE (R108, R109) -/

section
variable (ha : s.attached p = true)
include ha

theorem pollCreateReply_badfield (h : parsePollDef body = none) : pollCreateReply p body s = refuse .badfield s := by
  simp only [pollCreateReply, whenAttached_true s _ ha, h]

section
variable (h : parsePollDef body = some d)
include h

theorem pollCreateReply_fenced (hw : s.withheld p d.target = true) : pollCreateReply p body s = refuse .fenced s := by
  simp only [pollCreateReply, whenAttached_true s _ ha, h, hw, if_true]

variable (hw : s.withheld p d.target = false)
include hw

theorem pollCreateReply_exists {j : PollIx} (hj : s.sameIdentity d none = some j) :
    pollCreateReply p body s = { code := .exist, body := [byte j.val], state := s } := by
  simp only [pollCreateReply, whenAttached_true s _ ha, h, hw, hj]
  rfl

variable (hn : s.sameIdentity d none = none)
include hn

theorem pollCreateReply_full (hf : s.lowestFreePoll = none) : pollCreateReply p body s = refuse .full s := by
  simp only [pollCreateReply, whenAttached_true s _ ha, h, hw, hn, hf]
  rfl

theorem pollCreateReply_created (hf : s.lowestFreePoll = some i) : pollCreateReply p body s =
    ok [byte i.val] (modPoll i (fun en => { edit := en.edit + 1, body := some (d.body p) }) s) := by
  simp only [pollCreateReply, whenAttached_true s _ ha, h, hw, hn, hf]
  rfl

end

theorem pollChangeReply_badfield (h : parsePollChange body = none) : pollChangeReply p body s = refuse .badfield s := by
  simp only [pollChangeReply, whenAttached_true s _ ha, h]

section
variable (h : parsePollChange body = some (i, d))
include h

theorem pollChangeReply_free (hb : s.polls[i].body = none) : pollChangeReply p body s = refuse .nosuch s := by
  simp only [pollChangeReply, whenAttached_true s _ ha, h, hb]

variable (hb : s.polls[i].body = some b)
include hb

theorem pollChangeReply_notOwner (hc : b.creator ≠ some p) : pollChangeReply p body s = refuse .notowner s := by
  simp only [pollChangeReply, whenAttached_true s _ ha, h, hb, asCreator, if_neg hc]

variable (hc : b.creator = some p)
include hc

theorem pollChangeReply_exists {j : PollIx} (hj : s.sameIdentity d (some i) = some j) :
    pollChangeReply p body s = { code := .exist, body := [byte j.val], state := s } := by
  simp only [pollChangeReply, whenAttached_true s _ ha, h, hb, asCreator, if_pos hc, hj]

theorem pollChangeReply_changed (hn : s.sameIdentity d (some i) = none) : pollChangeReply p body s =
    ok [] (modPoll i (fun en => { edit := en.edit + 1, body := some (b.redefined d) }) s) := by
  simp only [pollChangeReply, whenAttached_true s _ ha, h, hb, asCreator, if_pos hc, hn]

end

end

/-- Settles O21: check by check, in the order of R107 and R108. -/
theorem pollCreateAndChange : Obligations.PollCreateAndChange := by
  unfold Obligations.PollCreateAndChange
  refine ⟨fun d x s => ⟨fun j => sameIdentity_spec, sameIdentity_eq_none_iff⟩, fun p seq body s ⟨ht, ha⟩ =>
    ⟨fun h => ?_, fun d h => ⟨fun hw => ?_, fun hw => ⟨fun j hj => ?_, fun hn => ⟨fun hf => ?_, fun i hi hlow => ?_⟩⟩⟩, fun h => ?_,
      fun i d h => ⟨fun hb => ?_, fun b hb => ⟨fun hc => ?_, fun hc => ⟨fun j hj => ?_, fun hn => ?_⟩⟩⟩⟩⟩
  · exact refused_of_reply rfl ht (pollCreateReply_badfield ha h)
  · exact refused_of_reply rfl ht (pollCreateReply_fenced ha h hw)
  · exact answered_of_reply rfl ht (pollCreateReply_exists ha h hw hj)
  · exact refused_of_reply rfl ht (pollCreateReply_full ha h hw hn (lowestFreePoll_eq_none_iff.mpr hf))
  · exact answered_of_reply rfl ht (pollCreateReply_created ha h hw hn (lowestFreePoll_eq_some_iff.mpr ⟨hi, hlow⟩))
  · exact refused_of_reply rfl ht (pollChangeReply_badfield ha h)
  · exact refused_of_reply rfl ht (pollChangeReply_free ha h hb)
  · exact refused_of_reply rfl ht (pollChangeReply_notOwner ha h hb hc)
  · exact answered_of_reply rfl ht (pollChangeReply_exists ha h hb hc hj)
  · exact answered_of_reply rfl ht (pollChangeReply_changed ha h hb hc hn)

/-! ### The requests of one entry (R107, R110 to R112) -/

section
variable {f : PollIx → PollBody → State → Reply} (ha : s.attached p = true)
include ha

theorem withEntry_badfield (h : parsePollIx body = none) : withEntry p body f s = refuse .badfield s := by
  simp only [withEntry, whenAttached_true s _ ha, h]

theorem withEntry_free (h : parsePollIx body = some i) (hb : s.polls[i].body = none) : withEntry p body f s = refuse .nosuch s := by
  simp only [withEntry, whenAttached_true s _ ha, h, hb]

theorem withEntry_held (h : parsePollIx body = some i) (hb : s.polls[i].body = some b) : withEntry p body f s = f i b s := by
  simp only [withEntry, whenAttached_true s _ ha, h, hb]

/-- An entry named by its index. -/
theorem withEntry_named (hb : s.polls[i].body = some b) : withEntry p [byte i.val] f s = f i b s :=
  withEntry_held ha (parsePollIx_iff.mpr rfl) hb

end

theorem asCreator_creator {f : State → Reply} (h : b.creator = some p) : asCreator p b f s = f s := if_pos h

theorem asCreator_other {f : State → Reply} (h : b.creator ≠ some p) : asCreator p b f s = refuse .notowner s := if_neg h

section
variable (ha : s.attached p = true) (hb : s.polls[i].body = some b) (hc : b.creator = some p)
include ha hb hc

theorem pollPauseReply_paused (h : b.paused = true) : pollPauseReply p [byte i.val] s = ok [] s := by
  rw [pollPauseReply, withEntry_named ha hb, asCreator_creator hc, if_pos h]

theorem pollPauseReply_active (h : b.paused = false) : pollPauseReply p [byte i.val] s =
    ok [] (unpend i (modPoll i (fun en => { en with body := some { b with paused := true } }) s)) := by
  rw [pollPauseReply, withEntry_named ha hb, asCreator_creator hc, if_neg (by simp [h])]

theorem pollResumeReply_own : pollResumeReply p [byte i.val] s =
    ok [] (modPoll i (fun en => { en with body := some { b with paused := false } }) s) := by
  rw [pollResumeReply, withEntry_named ha hb, asCreator_creator hc]

theorem pollDeleteReply_own : pollDeleteReply p [byte i.val] s =
    ok [] (unpend i (modPoll i (fun en => { edit := en.edit + 1, body := none }) s)) := by
  rw [pollDeleteReply, withEntry_named ha hb, asCreator_creator hc]

end

section
variable (ha : s.attached p = true) (hb : s.polls[i].body = some b)
include ha hb

theorem pollAdoptReply_held (hc : b.creator ≠ none) : pollAdoptReply p [byte i.val] s = refuse .state s := by
  rw [pollAdoptReply, withEntry_named ha hb, if_neg hc]

theorem pollAdoptReply_orphan (hc : b.creator = none) : pollAdoptReply p [byte i.val] s =
    ok [] (modPoll i (fun en => { en with body := some { b with creator := some p } }) s) := by
  rw [pollAdoptReply, withEntry_named ha hb, if_pos hc]

end

/-- Settles O22: the checks that the four requests share, then each by its reply. -/
theorem pollEntryRequests : Obligations.PollEntryRequests := by
  unfold Obligations.PollEntryRequests
  rintro p seq i s ⟨ht, ha⟩
  have hix : parsePollIx [byte i.val] = some i := parsePollIx_iff.mpr rfl
  refine ⟨fun hb => ⟨?_, ?_, ?_, ?_⟩, fun b hb => ⟨fun hc => ⟨?_, ?_, ?_⟩, fun hc => ⟨fun hp => ?_, fun hp => ?_, ?_, ?_⟩, fun hc => ?_,
    fun hc => ?_⟩, fun bad h => ⟨?_, ?_, ?_, ?_⟩⟩
  · exact refused_of_reply rfl ht (f := pollPauseReply p _) (withEntry_free ha hix hb)
  · exact refused_of_reply rfl ht (f := pollResumeReply p _) (withEntry_free ha hix hb)
  · exact refused_of_reply rfl ht (f := pollDeleteReply p _) (withEntry_free ha hix hb)
  · exact refused_of_reply rfl ht (f := pollAdoptReply p _) (withEntry_free ha hix hb)
  · exact refused_of_reply rfl ht (f := pollPauseReply p _) ((withEntry_named ha hb).trans (asCreator_other hc))
  · exact refused_of_reply rfl ht (f := pollResumeReply p _) ((withEntry_named ha hb).trans (asCreator_other hc))
  · exact refused_of_reply rfl ht (f := pollDeleteReply p _) ((withEntry_named ha hb).trans (asCreator_other hc))
  · exact answered_of_reply rfl ht (pollPauseReply_paused ha hb hc hp)
  · exact answered_of_reply rfl ht (pollPauseReply_active ha hb hc hp)
  · exact answered_of_reply rfl ht (pollResumeReply_own ha hb hc)
  · exact answered_of_reply rfl ht (pollDeleteReply_own ha hb hc)
  · exact refused_of_reply rfl ht (pollAdoptReply_held ha hb hc)
  · exact answered_of_reply rfl ht (pollAdoptReply_orphan ha hb hc)
  · exact refused_of_reply rfl ht (f := pollPauseReply p bad) (withEntry_badfield ha h)
  · exact refused_of_reply rfl ht (f := pollResumeReply p bad) (withEntry_badfield ha h)
  · exact refused_of_reply rfl ht (f := pollDeleteReply p bad) (withEntry_badfield ha h)
  · exact refused_of_reply rfl ht (f := pollAdoptReply p bad) (withEntry_badfield ha h)

/-! ### SNAP READ (R113, R178) -/

theorem snapFlags (hidden stale valid : Bool) :
    ((0 : BitVec 5) ++ BitVec.ofBool hidden ++ BitVec.ofBool stale ++ BitVec.ofBool valid : Byte) =
      (if hidden then 4 else 0) ||| (if stale then 2 else 0) ||| (if valid then 1 else 0) := by
  revert hidden stale valid; decide

theorem outcomeByte_eq (o : Option Outcome) : outcomeByte o = (o.map Outcome.code).getD 0 := by cases o <;> rfl

/-- A snapshot's image before its value words, as section 12.3 lays it out. -/
theorem snapImage_layout (i : PollIx) (edit : Byte) (b : PollBody) (hidden : Bool) : snapImage i edit b hidden =
    [byte i.val, if b.paused then 2 else 1, b.target.zeroExtend 8] ++ wordBytes b.span.word ++
      [byte b.period, byte b.phase, (b.creator.map fun q => byte q.val).getD 0xFF, edit, byte b.missed,
        b.snap.srcTarget.zeroExtend 8] ++ wordBytes b.snap.srcSpan.word ++
      [(if hidden then 4 else 0) ||| (if b.snap.stale then 2 else 0) ||| (if b.snap.valid then 1 else 0)] ++
      wordBytes b.snap.seq ++ [byte b.snap.age, byte b.snap.failRun, (b.snap.last.map Outcome.code).getD 0] ++
      (if hidden then [] else b.snap.words.flatMap wordBytes) := by
  rw [snapImage, snapFlags, outcomeByte_eq]
  rfl

section
variable (ha : s.attached p = true) (h : parsePollIx body = some i) (hb : s.polls[i].body = some b)
include ha h hb

theorem snapReadReply_shown (hw : (s.withheld p b.target || s.withheld p b.snap.srcTarget) = false) :
    snapReadReply p body s = ok (snapImage i s.polls[i].edit b false) s := by
  rw [snapReadReply, withEntry_held ha h hb, if_neg (by rw [hw]; exact Bool.false_ne_true)]

theorem snapReadReply_fenced (hw : (s.withheld p b.target || s.withheld p b.snap.srcTarget) = true) :
    snapReadReply p body s = { code := .fenced, body := snapImage i s.polls[i].edit b true, state := s } := by
  rw [snapReadReply, withEntry_held ha h hb, if_pos hw]

end

/-- Settles O23: the image as laid out, with its words or without them. -/
theorem snapshotRead : Obligations.SnapshotRead := by
  unfold Obligations.SnapshotRead
  refine fun p seq body s ⟨ht, ha⟩ => ⟨fun h => ?_, fun i h => ⟨fun hb => ?_, fun b hb => ⟨fun hw => ?_, fun hw => ?_⟩⟩⟩
  · exact refused_of_reply rfl ht (f := snapReadReply p body) (withEntry_badfield ha h)
  · exact refused_of_reply rfl ht (f := snapReadReply p body) (withEntry_free ha h hb)
  · have hx := snapReadReply_shown ha h hb hw
    rw [snapImage_layout] at hx
    rw [hw]
    exact answered_of_reply rfl ht hx
  · have hx := snapReadReply_fenced ha h hb hw
    rw [snapImage_layout] at hx
    rw [hw]
    have hnil : ∀ l : List Byte, (l ++ if true = true then [] else b.snap.words.flatMap wordBytes) = l := List.append_nil
    rw [hnil] at hx
    exact answered_of_reply rfl ht hx

/-! ### Poll outcomes (R103 to R106) -/

section
variable {edit : Byte} {o : Outcome} {words : List Word}

theorem pollOutcome_discarded (h : s.polls[i].body = none ∨ s.polls[i].edit ≠ edit) : pollOutcome i edit o words s = s := by
  unfold pollOutcome
  split
  · rfl
  · next b hb => exact if_pos (h.resolve_left fun hn => by rw [hn] at hb; cases hb)

variable (hb : s.polls[i].body = some b) (he : s.polls[i].edit = edit)
include hb he

theorem pollOutcome_line : pollOutcome i edit .line words s =
    if b.paused then s else { s with pollPending := i :: s.pollPending.filter (· != i) } := by
  simp only [pollOutcome, hb, he, ne_eq, not_true_eq_false, if_false, if_true]

/-- An applied outcome is written into the snapshot, and a snapshot that turns stale sets its creator's mark (R104, R105). -/
theorem pollOutcome_applied (ho : o ≠ .line) : pollOutcome i edit o words s =
    let s' := modPoll i (fun en => { en with body := some { b with snap := b.snap.after b o words } }) s
    if b.snap.turnsStale o then b.creator.elim s' (fun q => mark .stale q s') else s' := by
  simp only [pollOutcome, hb, he, ne_eq, not_true_eq_false, if_false, if_neg ho]
  cases b.creator <;> rfl

end

theorem after_done (sn : Snapshot) (b : PollBody) (words : List Word) : sn.after b .done words =
    { words := words, srcTarget := b.target, srcSpan := b.span, valid := true, seq := sn.seq + 1, age := 0, failRun := 0,
      stale := false, last := some .done } := if_pos rfl

section
variable {sn : Snapshot} {o : Outcome} (hd : o ≠ .done)
include hd

theorem after_failed (words : List Word) (h : sn.failRun ≠ 2) :
    sn.after b o words = { sn with failRun := min 15 (sn.failRun + 1), last := some o } := by
  rw [Snapshot.after, if_neg hd, if_neg (by rw [Config.staleRun]; omega)]
  rfl

theorem after_third (words : List Word) (h : sn.failRun = 2) :
    sn.after b o words = { sn with failRun := 3, stale := true, last := some o } := by
  rw [Snapshot.after, if_neg hd, h]
  rfl

theorem turnsStale_iff : sn.turnsStale o = true ↔ sn.failRun = 2 := by
  rw [Snapshot.turnsStale, Bool.and_eq_true, bne_iff_ne, beq_iff_eq, Config.staleRun]
  exact ⟨fun h => by omega, fun h => ⟨hd, by omega⟩⟩

end

theorem turnsStale_done (sn : Snapshot) : sn.turnsStale .done = false := rfl

/-- Settles O24: by the outcome, and for a failure by the run it adds to. -/
theorem pollOutcomes : Obligations.PollOutcomes := by
  unfold Obligations.PollOutcomes
  refine fun i edit o words s => ⟨pollOutcome_discarded, fun b hb he => ⟨?_, ?_, ?_, fun hl hd hr => ?_, fun hl hd hr => ?_⟩⟩
  · rintro rfl hp
    exact (pollOutcome_line hb he).trans (if_neg (by simp [hp]))
  · rintro rfl hp
    exact (pollOutcome_line hb he).trans (if_pos hp)
  · rintro rfl
    rw [pollOutcome_applied hb he (o := .done) (by decide), turnsStale_done, after_done]
    rfl
  · rw [pollOutcome_applied hb he hl, after_failed hd words hr]
    exact if_neg (mt (turnsStale_iff hd).mp hr)
  · rw [pollOutcome_applied hb he hl, after_third hd words hr, if_pos ((turnsStale_iff hd).mpr hr)]
    exact ⟨fun hc => by rw [hc]; rfl, fun q hc => by rw [hc]; rfl⟩

end Sys2Proof.Machine

/-! PROOF. Reservations (07): CLAIM (O26), RENEW, RELEASE and CLAIM QUERY (O27). Reports (08): FETCH (O28), the pending flags and the
marks with their requests (O29). -/

namespace Sys2Proof.Machine

variable {s : State} {p : Port} {seq : Byte} {body : List Byte} {e : ResvIx} {a : Reservation} {i : SlotIx} {r : Record}

/-! ### CLAIM (R118) -/

theorem lowestFreeResv_eq_none_iff : s.lowestFreeResv = none ↔ ∀ f : ResvIx, s.resvs[f] ≠ none := by
  rw [State.lowestFreeResv, find_finRange_eq_none_iff]
  exact forall_congr' fun _ => isNone_eq_false_iff

theorem lowestFreeResv_eq_some_iff : s.lowestFreeResv = some e ↔ s.resvs[e] = none ∧ ∀ f : ResvIx, f < e → s.resvs[f] ≠ none := by
  rw [State.lowestFreeResv, find_finRange_eq_some_iff, Option.isNone_iff_eq_none]
  exact and_congr_right fun _ => forall₂_congr fun _ _ => isNone_eq_false_iff

section
variable {base mask : BitVec 6} {priv : Bool} {lease : Nat} (ha : s.attached p = true)
include ha

theorem claimReply_badfield (h : parseClaim body = none) : claimReply p body s = refuse .badfield s := by
  simp only [claimReply, whenAttached_true s _ ha, h]

variable (h : parseClaim body = some (base, mask, priv, lease))
include h

theorem claimReply_conflict (hc : s.conflicts p base mask = true) : claimReply p body s = refuse .conflict s := by
  simp only [claimReply, whenAttached_true s _ ha, h, hc, if_true]

variable (hc : s.conflicts p base mask = false)
include hc

theorem claimReply_full (hf : s.lowestFreeResv = none) : claimReply p body s = refuse .full s := by
  simp only [claimReply, whenAttached_true s _ ha, h, hc, hf]
  rfl

theorem claimReply_held (hf : s.lowestFreeResv = some e) : claimReply p body s = ok [byte e.val]
    (setResv e (some { owner := p, base := base, mask := mask, priv := priv, lease := lease, remaining := lease }) s) := by
  simp only [claimReply, whenAttached_true s _ ha, h, hc, hf]
  rfl

end

/-- Settles O26: a conflict is an address that the claimed pattern shares with an entry of another port. -/
theorem claimAddsEntry : Obligations.ClaimAddsEntry := by
  unfold Obligations.ClaimAddsEntry
  refine fun p seq body s ⟨ht, ha⟩ => ⟨fun h => ?_, fun base mask priv lease h => ⟨fun ⟨e, a, x, he, ho, hx⟩ => ?_, fun hapart => ?_⟩⟩
  · exact refused_of_reply rfl ht (claimReply_badfield ha h)
  · exact refused_of_reply rfl ht (claimReply_conflict ha h (conflicts_iff.mpr ⟨e, a, he, ho, x, hx⟩))
  · have hc : s.conflicts p base mask = false := Bool.eq_false_iff.mpr fun hc => by
      obtain ⟨e, a, he, ho, x, hx⟩ := conflicts_iff.mp hc
      exact hapart e a x he ho hx
    refine ⟨fun hf => ?_, fun e he hlow => ?_⟩
    · exact refused_of_reply rfl ht (claimReply_full ha h hc (lowestFreeResv_eq_none_iff.mpr hf))
    · exact answered_of_reply rfl ht (claimReply_held ha h hc (lowestFreeResv_eq_some_iff.mpr ⟨he, hlow⟩))

/-! ### RENEW, RELEASE and CLAIM QUERY (R119, R120, R122) -/

section
variable {f : ResvIx → Reservation → State → Reply} (ha : s.attached p = true)
include ha

theorem withResv_badfield (h : parseResvIx body = none) : withResv p body f s = refuse .badfield s := by
  simp only [withResv, whenAttached_true s _ ha, h]

variable (h : parseResvIx body = some e)
include h

theorem withResv_free (he : s.resvs[e] = none) : withResv p body f s = refuse .nosuch s := by
  simp only [withResv, whenAttached_true s _ ha, h, he]

variable (he : s.resvs[e] = some a)
include he

theorem withResv_notOwner (ho : a.owner ≠ p) : withResv p body f s = refuse .notowner s := by
  simp only [withResv, whenAttached_true s _ ha, h, he, if_neg ho]

theorem withResv_owner (ho : a.owner = p) : withResv p body f s = f e a s := by
  simp only [withResv, whenAttached_true s _ ha, h, he, if_pos ho]

end

theorem resvFlags (priv : Bool) (owner : Port) :
    ((1 : BitVec 1) ++ (0 : BitVec 4) ++ BitVec.ofBool priv ++ BitVec.ofNat 2 owner.val : Byte) =
      (0x80 : Byte) ||| (if priv then 4 else 0) ||| byte owner.val := by
  revert priv owner; decide

/-- An entry of the CLAIM QUERY body, as section 12.6 lays it out. -/
theorem resvImage_layout (x : Option Reservation) : resvImage x =
    match x with
    | none => [0, 0, 0, 0, 0]
    | some a =>
      [(0x80 : Byte) ||| (if a.priv then 4 else 0) ||| byte a.owner.val, a.base.zeroExtend 8, a.mask.zeroExtend 8,
        byte a.lease, byte a.remaining] := by
  cases x with
  | none => rfl
  | some a => rw [resvImage, resvFlags]

theorem claimQueryReply_table (ha : s.attached p = true) :
    claimQueryReply p [] s = ok ((List.finRange 8).flatMap fun e => resvImage s.resvs[e]) s := whenAttached_true s _ ha

theorem claimQueryReply_badfield (ha : s.attached p = true) (hb : body ≠ []) : claimQueryReply p body s = refuse .badfield s :=
  (whenAttached_true s _ ha).trans (if_pos hb)

/-- Settles O27: the checks that RENEW and RELEASE share, and the table as laid out. -/
theorem renewReleaseQuery : Obligations.RenewReleaseQuery := by
  unfold Obligations.RenewReleaseQuery
  refine fun p seq body s ⟨ht, ha⟩ => ⟨fun h => ⟨?_, ?_⟩, fun e h => ⟨fun he => ⟨?_, ?_⟩, fun a he => ⟨fun ho => ⟨?_, ?_⟩,
    fun ho => ⟨?_, ?_⟩⟩⟩, ?_, fun hb => ?_⟩
  · exact refused_of_reply rfl ht (f := renewReply p body) (withResv_badfield ha h)
  · exact refused_of_reply rfl ht (f := releaseReply p body) (withResv_badfield ha h)
  · exact refused_of_reply rfl ht (f := renewReply p body) (withResv_free ha h he)
  · exact refused_of_reply rfl ht (f := releaseReply p body) (withResv_free ha h he)
  · exact refused_of_reply rfl ht (f := renewReply p body) (withResv_notOwner ha h he ho)
  · exact refused_of_reply rfl ht (f := releaseReply p body) (withResv_notOwner ha h he ho)
  · exact answered_of_reply rfl ht (f := renewReply p body) (withResv_owner ha h he ho)
  · exact answered_of_reply rfl ht (f := releaseReply p body) (withResv_owner ha h he ho)
  · have hx := claimQueryReply_table ha
    rw [funext fun e : ResvIx => resvImage_layout s.resvs[e]] at hx
    exact answered_of_reply rfl ht hx
  · exact refused_of_reply rfl ht (claimQueryReply_badfield ha hb)

/-! ### FETCH (R131 to R133) -/

theorem noteFlags (late cancel : Bool) (chain : Fin 4) (k : Kind) :
    ((0 : BitVec 2) ++ BitVec.ofBool late ++ BitVec.ofBool cancel ++ BitVec.ofNat 2 chain.val ++ k.code : Byte) =
      (if late then 0x20 else 0) ||| (if cancel then 0x10 else 0) ||| byte (4 * chain.val) ||| k.code.zeroExtend 8 := by
  revert late cancel chain
  cases k <;> decide

/-- A note, as section 12.3 lays it out. -/
theorem noteImage_layout (i : SlotIx) (g : Byte) (r : Record) : noteImage i g r =
    [byte i.val, g,
        (if r.cancelLate then 0x20 else 0) ||| (if r.cancelPending then 0x10 else 0) ||| byte (4 * r.chain.val) |||
          r.kind.code.zeroExtend 8,
        r.target.zeroExtend 8] ++
      wordBytes r.span.word ++ wordBytes r.tag ++
      [(r.endKind.map EndKind.code).getD 0, r.lastOutcome.code Outcome.code, r.haltReason.code HaltReason.code,
        byte r.attempts, byte r.budgetLeft] ++
      wordBytes r.postedSweep ++ wordBytes (r.completionSweep.getD 0) ++ r.result.image := by
  rw [noteImage, noteFlags]

section
variable (ha : s.attached p = true)
include ha

theorem fetchReply_badfield (hb : body ≠ []) : fetchReply p body s = refuse .badfield s :=
  (whenAttached_true s _ ha).trans (if_pos hb)

theorem fetchReply_empty (hq : s.reports[p].queue = []) : fetchReply p [] s = refuse .empty s := by
  simp only [fetchReply, whenAttached_true s _ ha, hq]
  rfl

variable {rest : List SlotIx} (hq : s.reports[p].queue = i :: rest) (hr : s.record i = some r)
include hq hr

theorem fetchReply_held : fetchReply p [] s =
    if s.slots[i].codeMatches then ok (noteImage i s.slots[i].gen r) (freeSlot i (unlist i s))
    else refuse .faulted (storeFault (damageSlot i s)) := by
  simp only [fetchReply, whenAttached_true s _ ha, hq, hr]
  rfl

theorem fetchReply_note (hm : s.slots[i].codeMatches = true) :
    fetchReply p [] s = ok (noteImage i s.slots[i].gen r) (freeSlot i (unlist i s)) := by
  rw [fetchReply_held ha hq hr, if_pos hm]

theorem fetchReply_mismatch (hm : s.slots[i].codeMatches = false) :
    fetchReply p [] s = refuse .faulted (storeFault (damageSlot i s)) := by
  rw [fetchReply_held ha hq hr, if_neg (by rw [hm]; exact Bool.false_ne_true)]

end

/-- Settles O28: the note as laid out, and the slot that held it freed. -/
theorem fetchTakesOldestNote : Obligations.FetchTakesOldestNote := by
  unfold Obligations.FetchTakesOldestNote
  refine ⟨⟨rfl, rfl⟩, fun p seq body s ⟨ht, ha⟩ => ⟨fun hb => ?_, fun hq => ?_, fun i rest r hq hr => ⟨fun hm => ?_, fun hm => ?_⟩⟩⟩
  · exact refused_of_reply rfl ht (fetchReply_badfield ha hb)
  · exact refused_of_reply rfl ht (fetchReply_empty ha hq)
  · exact answered_of_reply rfl ht (fetchReply_mismatch ha hq hr hm)
  · have hx := fetchReply_note ha hq hr hm
    rw [noteImage_layout, freeSlot, unlist_slots] at hx
    have hres := answered_of_reply (c := .fetch p seq []) (seq := seq) rfl ht hx
    cases hr' : r.result <;> rw [hr'] at hres <;> exact hres

/-! ### Flags and marks (R84, R135 to R140) -/

/-- Attached ports alone have flags and marks set. -/
theorem raiseAll_attached {c : Cause} (h : s.attached p = true) :
    (raiseAll c s).reports[p] = { s.reports[p] with pending := s.reports[p].pending ||| c.bit } := by
  rw [raiseAll_report, if_pos h]

theorem raiseAll_detached {c : Cause} (h : s.attached p = false) : (raiseAll c s).reports[p] = s.reports[p] := by
  rw [raiseAll_report, if_neg (by simp [h])]

theorem markAll_attached {d : Deferred} (h : s.attached p = true) :
    (markAll d s).reports[p] = { s.reports[p] with marks := s.reports[p].marks ||| d.bit } := by
  rw [markAll_report, if_pos h]

theorem markAll_detached {d : Deferred} (h : s.attached p = false) : (markAll d s).reports[p] = s.reports[p] := by
  rw [markAll_report, if_neg (by simp [h])]

theorem raise_attached {c : Cause} (h : s.attached p = true) :
    (raise c p s).reports[p] = { s.reports[p] with pending := s.reports[p].pending ||| c.bit } := by
  rw [raise_report, if_pos ⟨rfl, h⟩]

theorem raise_other {c : Cause} {q : Port} (h : s.attached q = false ∨ q ≠ p) : (raise c p s).reports[q] = s.reports[q] := by
  rw [raise_report, if_neg]
  rintro ⟨rfl, ha⟩
  exact h.elim (fun h => by rw [ha] at h; cases h) (fun h => h rfl)

theorem mark_attached {d : Deferred} (h : s.attached p = true) :
    (mark d p s).reports[p] = { s.reports[p] with marks := s.reports[p].marks ||| d.bit } := by
  rw [mark_report, if_pos ⟨rfl, h⟩]

theorem mark_other {d : Deferred} {q : Port} (h : s.attached q = false ∨ q ≠ p) : (mark d p s).reports[q] = s.reports[q] := by
  rw [mark_report, if_neg]
  rintro ⟨rfl, ha⟩
  exact h.elim (fun h => by rw [ha] at h; cases h) (fun h => h rfl)

theorem raise_frame (c : Cause) (p : Port) (s : State) : raise c p s = { s with reports := (raise c p s).reports } := by
  unfold raise; split <;> rfl

theorem mark_frame (d : Deferred) (p : Port) (s : State) : mark d p s = { s with reports := (mark d p s).reports } := by
  unfold mark; split <;> rfl

theorem marks_get (p : Port) : s.marks[p] = s.reports[p].marks := by rw [State.marks, tab_get]

theorem clearMarks_report : (clearMarks s).reports[p] = { s.reports[p] with marks := 0 } := by
  simp only [clearMarks]; rw [tab_get]

theorem pendMarks_report (m : Marks) : (pendMarks m s).reports[p] =
    if s.attached p then s.reports[p].pendMarks m[p] else { s.reports[p] with marks := s.reports[p].marks ||| m[p] } := by
  simp only [pendMarks]; rw [tab_get]

theorem pendMarks_detached (m : Marks) (h : s.attached p = false) :
    (pendMarks m s).reports[p] = { s.reports[p] with marks := s.reports[p].marks ||| m[p] } := by
  rw [pendMarks_report, if_neg (by simp [h])]

theorem pendMarks_attached (m : Marks) (h : s.attached p = true) : (pendMarks m s).reports[p] = s.reports[p].pendMarks m[p] := by
  rw [pendMarks_report, if_pos h]

theorem pendMarks_now (h : Config.endMarksPendNow = true) (m : BitVec 4) (q : Report) : q.pendMarks m =
    { q with pending := q.pending ||| m.zeroExtend 8 ||| q.marks.zeroExtend 8, marks := 0 } := by
  have hz : (m ||| q.marks).zeroExtend 8 = m.zeroExtend 8 ||| q.marks.zeroExtend 8 := BitVec.setWidth_or
  rw [Report.pendMarks, if_pos h, hz, BitVec.or_assoc]

theorem pendMarks_later (h : Config.endMarksPendNow = false) (m : BitVec 4) (q : Report) :
    q.pendMarks m = { q with pending := q.pending ||| m.zeroExtend 8 } := by
  rw [Report.pendMarks, if_neg (by simp [h])]

/-- Marks set before the event alone: the two readings of log 7 agree. -/
theorem pendMarks_alone (m : BitVec 4) {q : Report} (h : q.marks = 0) :
    q.pendMarks m = { q with pending := q.pending ||| m.zeroExtend 8, marks := 0 } := by
  cases hc : Config.endMarksPendNow with
  | true => rw [pendMarks_now hc, h]; simp
  | false => rw [pendMarks_later hc, ← h]

theorem common_bits_eq_zero_iff {x y : Byte} : x &&& y = 0 ↔ ∀ n : Fin 8, ¬ (x.getLsbD n.val = true ∧ y.getLsbD n.val = true) := by
  refine ⟨fun h n ⟨hx, hy⟩ => ?_, fun h => BitVec.eq_of_getLsbD_eq fun n hn => ?_⟩
  · have hn : (x &&& y).getLsbD n.val = true := by rw [BitVec.getLsbD_and, hx, hy]; rfl
    rw [h] at hn
    simp at hn
  · have hn := h ⟨n, hn⟩
    rw [BitVec.getLsbD_and, Bool.eq_false_iff.mpr fun hxy => hn (Bool.and_eq_true_iff.mp hxy)]
    exact (BitVec.getLsbD_zero).symm

theorem notify_iff : s.notify p = true ↔
    s.attached p = true ∧ ∃ n : Fin 8, s.reports[p].pending.getLsbD n.val = true ∧ s.reports[p].enables.getLsbD n.val = true := by
  rw [State.notify, Bool.and_eq_true, bne_iff_ne, ne_eq, ← not_forall_not, common_bits_eq_zero_iff]

theorem causesBody_modReport (p : Port) (f : Report → Report) (s : State) :
    causesBody (modReport p f s) p = [(f s.reports[p]).pending, (f s.reports[p]).enables] := by
  have h : (modReport p f s).reports[p] = f s.reports[p] := modAt_get_self _ p f
  rw [causesBody, h]

theorem causesRefused (hb : body.length ≠ 1) : parseCauses body = none := by
  match body, hb with
  | [], _ => rfl
  | _ :: _ :: _, _ => rfl

section
variable (ha : s.attached p = true)
include ha

theorem notifySetReply_set (b : Byte) : notifySetReply p [b] s =
    ok [s.reports[p].pending, b] { s with reports := modAt s.reports p fun q => { q with enables := b } } :=
  (whenAttached_true s _ ha).trans (congrArg (ok · _) (causesBody_modReport p _ s))

theorem notifyAckReply_clear (b : Byte) : notifyAckReply p [b] s = ok [s.reports[p].pending &&& ~~~ b, s.reports[p].enables]
    { s with reports := modAt s.reports p fun q => { q with pending := q.pending &&& ~~~ b } } :=
  (whenAttached_true s _ ha).trans (congrArg (ok · _) (causesBody_modReport p _ s))

theorem notifySetReply_badfield (h : parseCauses body = none) : notifySetReply p body s = refuse .badfield s := by
  simp only [notifySetReply, whenAttached_true s _ ha, h]

theorem notifyAckReply_badfield (h : parseCauses body = none) : notifyAckReply p body s = refuse .badfield s := by
  simp only [notifyAckReply, whenAttached_true s _ ha, h]

end

/-- Settles O29: each operation on flags and marks at attached ports and at the others, and what a turnover makes of the marks by the
free value of log 7. -/
theorem notifyFlags : Obligations.NotifyFlags := by
  unfold Obligations.NotifyFlags
  refine ⟨rfl, rfl, fun c p s => ⟨raise_frame c p s, rfl, fun q => ⟨fun h => ⟨raiseAll_attached h, ?_⟩, raiseAll_detached, raise_other⟩⟩,
    fun d p s => ⟨mark_frame d p s, rfl, fun q => ⟨fun h => ⟨markAll_attached h, ?_⟩, markAll_detached, mark_other⟩⟩,
    fun p m s => ⟨marks_get p, rfl, rfl, pendMarks_detached m⟩, fun p seq b body s ⟨ht, ha⟩ => ⟨?_, ?_, fun hb => ⟨?_, ?_⟩⟩,
    fun p s => notify_iff, fun p s h => ?_, ?_⟩
  · rintro rfl; exact raise_attached h
  · rintro rfl; exact mark_attached h
  · exact answered_of_reply rfl ht (notifySetReply_set ha b)
  · exact answered_of_reply rfl ht (notifyAckReply_clear ha b)
  · exact refused_of_reply rfl ht (notifySetReply_badfield ha (causesRefused hb))
  · exact refused_of_reply rfl ht (notifyAckReply_badfield ha (causesRefused hb))
  · have h' : (clearMarks s).attached p = true := h
    rw [pendMarks_attached _ h', clearMarks_report, pendMarks_alone _ rfl, marks_get]
  · cases hc : Config.endMarksPendNow with
    | true => exact .inl fun p m s h => by rw [pendMarks_attached _ h, pendMarks_now hc]
    | false => exact .inr fun p m s h => by rw [pendMarks_attached _ h, pendMarks_later hc]

end Sys2Proof.Machine

/-! PROOF. The Agreement Unit (09): PROPOSE (O30), CONFIRM (O31), DECLINE, WITHDRAW and AGREE QUERY (O32), what a decision applies
(O33), and the disposal at RESTART (O34). -/

namespace Sys2Proof.Machine

variable {s : State} {p : Port} {seq : Byte} {body : List Byte} {pr : Proposal} {c : Change}

/-! ### PROPOSE (R144, R147) -/

theorem valid_iff (c : Change) (sched : Sched) : c.valid sched = true ↔
    match c with
    | .sweepLength _ | .pollWindow _ | .quotas _ => True
    | .fieldRate _ | .start => sched = .stopped
    | .stop => sched = .running
    | .restart => sched = .faulted := by
  cases c <;> simp [Change.valid]

theorem newProposal_required {q : Port} : (newProposal p c s).required.has q = s.attached q := has_attachedSet

theorem newProposal_confirmed {q : Port} : (newProposal p c s).confirmed.has q = true ↔ q = p :=
  (Bool.eq_iff_iff.mp has_portSet).trans decide_eq_true_iff

theorem newProposal_complete_iff : (newProposal p c s).complete = true ↔ ∀ q : Port, q ≠ p → s.attached q = false := by
  rw [complete_iff]
  refine forall_congr' fun q => ?_
  rw [newProposal_required, newProposal_confirmed]
  cases s.attached q <;> simp

/-- One port's part of the raise at the required ports (R147). -/
theorem raiseWhere_report {f : Port → Bool} (l : List Port) (hl : l.Nodup) (s : State) (q : Port) :
    (l.foldl (fun s q => if f q then raise .proposal q s else s) s).reports[q] =
      if q ∈ l ∧ f q = true ∧ s.attached q = true then
        { s.reports[q] with pending := s.reports[q].pending ||| Cause.proposal.bit }
      else s.reports[q] := by
  induction l generalizing s with
  | nil => simp
  | cons a l ih =>
    obtain ⟨ha, hl⟩ := List.nodup_cons.mp hl
    rw [List.foldl_cons, ih hl]
    by_cases hf : f a = true
    · rw [if_pos hf, (store_raise s .proposal a).attached, raise_report]
      by_cases hq : q = a
      · subst hq
        simp [ha, hf]
      · simp [hq]
    · rw [if_neg hf]
      by_cases hq : q = a
      · subst hq
        simp [ha, hf]
      · simp [hq]

theorem raiseProposal_report (q : Port) : (raiseProposal pr s).reports[q] =
    if q ≠ pr.proposer ∧ pr.required.has q = true ∧ s.attached q = true then
      { s.reports[q] with pending := s.reports[q].pending ||| Cause.proposal.bit }
    else s.reports[q] := by
  rw [raiseProposal, raiseWhere_report _ (List.nodup_finRange 4)]
  simp only [List.mem_finRange, true_and, Bool.and_eq_true, bne_iff_ne]
  exact if_congr ⟨fun ⟨⟨h1, h2⟩, h3⟩ => ⟨h2, h1, h3⟩, fun ⟨h1, h2, h3⟩ => ⟨⟨h2, h1⟩, h3⟩⟩ rfl rfl

theorem raiseProposal_frame (pr : Proposal) (s : State) :
    raiseProposal pr s = { s with reports := (raiseProposal pr s).reports } := by
  refine foldl_keeps (I := fun t => t = { s with reports := t.reports }) (fun t q ht => ?_) (List.finRange 4) rfl
  split
  · rw [raise_frame, ht]
  · exact ht

/-- An accepted PROPOSE raises PROPOSAL at every other attached port (R147). -/
theorem acceptPropose_eq : acceptPropose p c s =
    { s with
      lastNumber := s.lastNumber + 1
      proposal := some (newProposal p c s)
      reports := tab fun q =>
        if q ≠ p ∧ s.attached q = true then { s.reports[q] with pending := s.reports[q].pending ||| Cause.proposal.bit }
        else s.reports[q] } := by
  have hreports : (acceptPropose p c s).reports = tab fun q =>
      if q ≠ p ∧ s.attached q = true then { s.reports[q] with pending := s.reports[q].pending ||| Cause.proposal.bit }
      else s.reports[q] := table_ext fun q => by
    rw [tab_get, acceptPropose, raiseProposal_report]
    dsimp only
    rw [newProposal_required]
    exact if_congr ⟨fun ⟨h1, h2, _⟩ => ⟨h1, h2⟩, fun ⟨h1, h2⟩ => ⟨h1, h2, h2⟩⟩ rfl rfl
  rw [← hreports]
  exact raiseProposal_frame _ _

section
variable (ha : s.attached p = true)
include ha

theorem proposeReply_badfield (h : parseChange body = none) : proposeReply p body s = refuse .badfield s := by
  simp only [proposeReply, whenAttached_true s _ ha, h]

variable (h : parseChange body = some c)
include h

theorem proposeReply_busy (hp : s.proposal ≠ none) : proposeReply p body s = refuse .busy s := by
  simp only [proposeReply, whenAttached_true s _ ha, h, if_pos (Option.isSome_iff_ne_none.mpr hp)]

variable (hp : s.proposal = none)
include hp

theorem proposeReply_state (hv : c.valid s.sched = false) : proposeReply p body s = refuse .state s := by
  simp only [proposeReply, whenAttached_true s _ ha, h, hp, hv]
  rfl

variable (hv : c.valid s.sched = true)
include hv

theorem proposeReply_accepted : proposeReply p body s =
    if (newProposal p c s).complete then
      ok [(newProposal p c s).number, ((newProposal p c s).finalVerdict (acceptPropose p c s)).code]
        (decideByConsent (newProposal p c s) (acceptPropose p c s))
    else ok [(newProposal p c s).number, 0] (acceptPropose p c s) := by
  simp only [proposeReply, whenAttached_true s _ ha, h, hp, hv]
  rfl

theorem proposeReply_pending (hn : (newProposal p c s).complete = false) :
    proposeReply p body s = ok [s.lastNumber + 1, 0] (acceptPropose p c s) := by
  rw [proposeReply_accepted ha h hp hv, if_neg (by simp [hn])]
  rfl

theorem proposeReply_alone (hc : (newProposal p c s).complete = true) : proposeReply p body s =
    ok [s.lastNumber + 1, Verdict.adopted.code] (offerBus (decideProposal (newProposal p c s) .adopted (acceptPropose p c s))) := by
  have hv' : (newProposal p c s).finalVerdict (acceptPropose p c s) = .adopted := by
    rw [acceptPropose_eq]
    exact finalVerdict_adopted hv
  rw [proposeReply_accepted ha h hp hv, if_pos hc, decideByConsent, hv']
  rfl

end

/-- Settles O30: an accepted proposal is decided at once exactly when no other port is attached. -/
theorem proposeMakesProposal : Obligations.ProposeMakesProposal := by
  unfold Obligations.ProposeMakesProposal
  refine ⟨fun ps p q => ⟨rfl, (Bool.eq_iff_iff.mp has_portSet).trans decide_eq_true_iff⟩, fun c sched => ?_, fun p seq body s ⟨ht, ha⟩ =>
    ⟨fun h => ?_, fun c h => ⟨fun hp => ?_, fun hp hv => ?_, fun hp hv => ?_⟩⟩⟩
  · cases c <;> exact valid_iff _ sched
  · exact refused_of_reply rfl ht (proposeReply_badfield ha h)
  · exact refused_of_reply rfl ht (proposeReply_busy ha h hp)
  · exact refused_of_reply rfl ht (proposeReply_state ha h hp hv)
  · refine ⟨newProposal p c s, rfl, fun q => ⟨newProposal_required, newProposal_confirmed⟩, fun ⟨q, hq, hqa⟩ => ?_, fun hn => ?_⟩
    · have hc : (newProposal p c s).complete = false := Bool.eq_false_iff.mpr fun hc => by
        have := newProposal_complete_iff.mp hc q hq
        rw [hqa] at this
        cases this
      have hx := proposeReply_pending ha h hp hv hc
      rw [acceptPropose_eq] at hx
      exact answered_of_reply rfl ht hx
    · have hx := proposeReply_alone ha h hp hv (newProposal_complete_iff.mpr hn)
      rw [acceptPropose_eq] at hx
      exact answered_of_reply rfl ht hx

/-! ### CONFIRM, DECLINE, WITHDRAW and AGREE QUERY (R148, R149, R152) -/

theorem numberRefused (hb : body.length ≠ 1) : parseNumber body = none := by
  match body, hb with
  | [], _ => rfl
  | _ :: _ :: _, _ => rfl

section
variable {f : Proposal → State → Reply} (ha : s.attached p = true)
include ha

theorem withProposal_badfield (h : parseNumber body = none) : withProposal p body f s = refuse .badfield s := by
  simp only [withProposal, whenAttached_true s _ ha, h]

theorem withProposal_unknown {n : Byte} (h : ∀ pr : Proposal, s.proposal = some pr → pr.number ≠ n) :
    withProposal p [n] f s = refuse .nosuch s := by
  simp only [withProposal, whenAttached_true s _ ha, parseNumber]
  split
  · rfl
  · next pr hpr => exact if_neg (h pr hpr)

theorem withProposal_pending (hpr : s.proposal = some pr) : withProposal p [pr.number] f s = f pr s := by
  simp only [withProposal, whenAttached_true s _ ha, parseNumber, hpr, if_true]

end

section
variable (ha : s.attached p = true) (hpr : s.proposal = some pr)
include ha hpr

theorem confirmReply_notRequired (h : pr.required.has p = false) : confirmReply p [pr.number] s = refuse .state s :=
  (withProposal_pending ha hpr).trans (if_pos (by simp [h]))

theorem confirmReply_required (h : pr.required.has p = true) : confirmReply p [pr.number] s =
    if pr.confirmed.has p then ok [0] s
    else if (pr.confirmedBy p).complete then
      ok [((pr.confirmedBy p).finalVerdict s).code] (decideByConsent (pr.confirmedBy p) s)
    else ok [0] { s with proposal := some (pr.confirmedBy p) } :=
  (withProposal_pending ha hpr).trans (if_neg (by simp [h]))

variable (h : pr.required.has p = true)
include h

theorem confirmReply_again (hc : pr.confirmed.has p = true) : confirmReply p [pr.number] s = ok [0] s := by
  rw [confirmReply_required ha hpr h, if_pos hc]

variable (hc : pr.confirmed.has p = false)
include hc

theorem confirmReply_joined (hn : (pr.confirmedBy p).complete = false) :
    confirmReply p [pr.number] s = ok [0] { s with proposal := some (pr.confirmedBy p) } := by
  rw [confirmReply_required ha hpr h, if_neg (by simp [hc]), if_neg (by simp [hn])]

theorem confirmReply_decided (hn : (pr.confirmedBy p).complete = true) {v : Verdict} (hv : (pr.confirmedBy p).finalVerdict s = v) :
    confirmReply p [pr.number] s = ok [v.code] (offerBus (decideProposal (pr.confirmedBy p) v s)) := by
  rw [confirmReply_required ha hpr h, if_neg (by simp [hc]), if_pos hn, decideByConsent, hv]

end

/-- Settles O31: by whether the port is required, has consented, and is the last to consent. -/
theorem confirmDecides : Obligations.ConfirmDecides := by
  unfold Obligations.ConfirmDecides
  refine fun p seq n body s ⟨ht, ha⟩ => ⟨fun hb => ?_, fun h => ?_, fun pr hpr hn => ?_⟩
  · exact refused_of_reply rfl ht (f := confirmReply p body) (withProposal_badfield ha (numberRefused hb))
  · exact refused_of_reply rfl ht (f := confirmReply p [n]) (withProposal_unknown ha h)
  · subst hn
    refine ⟨fun h => ?_, fun h hc => ?_, fun h hc => ⟨fun hn => ?_, fun hn => ⟨fun hv => ?_, fun hv => ?_⟩⟩⟩
    · exact refused_of_reply rfl ht (confirmReply_notRequired ha hpr h)
    · exact answered_of_reply rfl ht (confirmReply_again ha hpr h hc)
    · exact answered_of_reply rfl ht (confirmReply_joined ha hpr h hc (complete_eq_false_iff.mpr hn))
    · exact answered_of_reply rfl ht (confirmReply_decided ha hpr h hc (complete_iff.mpr hn) (finalVerdict_adopted hv))
    · exact answered_of_reply rfl ht (confirmReply_decided ha hpr h hc (complete_iff.mpr hn) (finalVerdict_void hv))

section
variable (ha : s.attached p = true) (hpr : s.proposal = some pr)
include ha hpr

theorem declineReply_notRequired (h : pr.required.has p = false) : declineReply p [pr.number] s = refuse .state s :=
  (withProposal_pending ha hpr).trans (if_pos (by simp [h]))

theorem declineReply_required (h : pr.required.has p = true) :
    declineReply p [pr.number] s = ok [] (decideProposal pr .declined s) := (withProposal_pending ha hpr).trans (if_neg (by simp [h]))

theorem withdrawReply_other (h : pr.proposer ≠ p) : withdrawReply p [pr.number] s = refuse .notowner s :=
  (withProposal_pending ha hpr).trans (if_pos h)

theorem withdrawReply_proposer (h : pr.proposer = p) :
    withdrawReply p [pr.number] s = ok [] (decideProposal pr .withdrawn s) :=
  (withProposal_pending ha hpr).trans (if_neg (not_not.mpr h))

end

theorem agreeQueryReply_image (ha : s.attached p = true) : agreeQueryReply p [] s = ok (agreeImage s) s := whenAttached_true s _ ha

theorem agreeQueryReply_badfield (ha : s.attached p = true) (hb : body ≠ []) : agreeQueryReply p body s = refuse .badfield s :=
  (whenAttached_true s _ ha).trans (if_pos hb)

/-- Settles O32: the checks that DECLINE and WITHDRAW share, and the two records as laid out. -/
theorem declineWithdrawQuery : Obligations.DeclineWithdrawQuery := by
  unfold Obligations.DeclineWithdrawQuery
  refine ⟨rfl, fun c => by cases c <;> exact ⟨rfl, rfl⟩, fun p seq n body s ⟨ht, ha⟩ => ⟨fun hb => ⟨?_, ?_⟩, fun h => ⟨?_, ?_⟩,
    fun pr hpr hn => ?_, fun hb => ?_, ?_⟩⟩
  · exact refused_of_reply rfl ht (f := declineReply p body) (withProposal_badfield ha (numberRefused hb))
  · exact refused_of_reply rfl ht (f := withdrawReply p body) (withProposal_badfield ha (numberRefused hb))
  · exact refused_of_reply rfl ht (f := declineReply p [n]) (withProposal_unknown ha h)
  · exact refused_of_reply rfl ht (f := withdrawReply p [n]) (withProposal_unknown ha h)
  · subst hn
    refine ⟨fun h => ?_, fun h => ?_, fun h => ?_, fun h => ?_⟩
    · exact refused_of_reply rfl ht (declineReply_notRequired ha hpr h)
    · exact answered_of_reply rfl ht (declineReply_required ha hpr h)
    · exact refused_of_reply rfl ht (withdrawReply_other ha hpr h)
    · exact answered_of_reply rfl ht (withdrawReply_proposer ha hpr h)
  · exact refused_of_reply rfl ht (agreeQueryReply_badfield ha hb)
  · have hx := answered_of_reply (c := .agreeQuery p seq []) (seq := seq) rfl ht (agreeQueryReply_image ha)
    rw [agreeImage] at hx
    cases hp : s.proposal <;> cases hd : s.decision <;> rw [hp, hd] at hx <;> exact hx

/-! ### Decisions (R145, R146) -/

theorem applyChange_stop_idle (h : s.exchange = none) : applyChange .stop s = { s with grant := none, sched := .stopped } := by
  simp only [applyChange, endGrant, h, Option.isSome_none]
  rfl

theorem applyChange_stop_busy (h : s.exchange ≠ none) : applyChange .stop s = { s with grant := none, sched := .draining } := by
  simp only [applyChange, endGrant, Option.isSome_iff_ne_none.mpr h]
  rfl

/-- Settles O33: each kind of change by its definition, STOP by whether an exchange is in progress. -/
theorem decisionsApplied : Obligations.DecisionsApplied := by
  unfold Obligations.DecisionsApplied
  exact ⟨fun _ _ _ => rfl, fun s => ⟨fun _ => rfl, fun _ => rfl, fun _ => rfl, fun _ => rfl, applyChange_stop_idle, applyChange_stop_busy,
    rfl⟩⟩

/-! ### The disposal at RESTART (R161) -/

section
variable {i : SlotIx} {r : Record}

theorem disposeDamaged_other (h : ∀ r : Record, s.record i = some r → r.state ≠ .damaged) : disposeDamaged s i = s := by
  unfold disposeDamaged
  split
  · rfl
  · next r hr => exact if_neg (h r hr)

theorem disposeDamaged_retired (hr : s.record i = some r) (hd : r.state = .damaged) (hp : r.owner = some p)
    (ha : s.attached p = true) : disposeDamaged s i = retire i r .damaged s := by
  simp only [disposeDamaged, hr, hd, hp, ha, if_true]

theorem disposeDamaged_freed (hr : s.record i = some r) (hd : r.state = .damaged)
    (hp : ∀ p : Port, r.owner = some p → s.attached p = false) : disposeDamaged s i = freeSlot i s := by
  simp only [disposeDamaged, hr, hd, if_true]
  split
  · next p ho => exact if_neg (by simp [hp p ho])
  · rfl

/-- The slot is left, freed, or retired for its attached owner. -/
theorem disposeDamaged_cases (s : State) (i : SlotIx) :
    (∀ r : Record, s.record i = some r → r.state ≠ .damaged) ∨
    ∃ r : Record, s.record i = some r ∧ r.state = .damaged ∧
      ((∀ p : Port, r.owner = some p → s.attached p = false) ∨ ∃ p : Port, r.owner = some p ∧ s.attached p = true) := by
  by_cases h : ∀ r : Record, s.record i = some r → r.state ≠ .damaged
  · exact .inl h
  · push Not at h
    obtain ⟨r, hr, hd⟩ := h
    refine .inr ⟨r, hr, hd, ?_⟩
    by_cases hp : ∃ p : Port, r.owner = some p ∧ s.attached p = true
    · exact .inr hp
    · exact .inl fun p ho => Bool.eq_false_iff.mpr fun ha => hp ⟨p, ho, ha⟩

/-- The slot after its own disposal. -/
theorem retire_slot_self (k : EndKind) :
    (retire i r k s).slots[i] = { gen := s.slots[i].gen, record := some (r.retired k s.sweep), codeMatches := true } := by
  unfold retire
  dsimp only
  split
  · rw [enqueueNote_slots, putRecord_slot_self, unlist_slots, unlist_sweep]; rfl
  · rw [putRecord_slot_self, unlist_slots, unlist_sweep]; rfl

theorem retire_slot_ne (k : EndKind) {j : SlotIx} (h : j ≠ i) : (retire i r k s).slots[j] = s.slots[j] := by
  unfold retire
  dsimp only
  split
  · rw [enqueueNote_slots, putRecord_slot_ne h, unlist_slots]
  · rw [putRecord_slot_ne h, unlist_slots]

theorem disposeDamaged_slot_ne {j : SlotIx} (h : j ≠ i) : (disposeDamaged s i).slots[j] = s.slots[j] := by
  rcases disposeDamaged_cases s i with hn | ⟨r, hr, hd, hp | ⟨p, hp, ha⟩⟩
  · rw [disposeDamaged_other hn]
  · rw [disposeDamaged_freed hr hd hp]
    exact modAt_get_ne _ _ h
  · rw [disposeDamaged_retired hr hd hp ha, retire_slot_ne _ h]

theorem dispose_slot_notMem {l : List SlotIx} (h : i ∉ l) (s : State) : (l.foldl disposeDamaged s).slots[i] = s.slots[i] := by
  induction l generalizing s with
  | nil => rfl
  | cons j l ih =>
    obtain ⟨hij, hil⟩ := List.ne_and_not_mem_of_not_mem_cons h
    rw [List.foldl_cons, ih hil, disposeDamaged_slot_ne hij]

/-- The disposal, around one slot: the slots before it, the slot itself as it stood at first, then the slots behind it. -/
theorem dispose_around (s : State) (i : SlotIx) : ∃ (u : State) (rest : List SlotIx), i ∉ rest ∧ StoreFrame s u ∧
    u.slots[i] = s.slots[i] ∧ (List.finRange 128).foldl disposeDamaged s = rest.foldl disposeDamaged (disposeDamaged u i) := by
  obtain ⟨front, rest, hl⟩ := List.append_of_mem (List.mem_finRange i)
  have hnodup : (front ++ i :: rest).Nodup := hl ▸ List.nodup_finRange 128
  obtain ⟨hfront, hrest⟩ : i ∉ front ∧ i ∉ rest := by
    rw [List.nodup_append] at hnodup
    obtain ⟨-, hcons, hdisj⟩ := hnodup
    exact ⟨fun hi => hdisj i hi i List.mem_cons_self rfl, (List.nodup_cons.mp hcons).1⟩
  exact ⟨front.foldl disposeDamaged s, rest, hrest, .foldl store_disposeDamaged front s, dispose_slot_notMem hfront s, by
    rw [hl, List.foldl_append, List.foldl_cons]⟩

/-- A slot that stands in a port's queue, with the port's REPORT mark set. -/
def State.Noted (s : State) (p : Port) (i : SlotIx) : Prop := i ∈ s.reports[p].queue ∧ s.reports[p].marks.getLsbD 0 = true

theorem retire_report (hp : r.owner = some p) (ha : s.attached p = true) (k : EndKind) (q : Port) : (retire i r k s).reports[q] =
    if q = p then
      { s.reports[p] with
        queue := s.reports[p].queue.filter (· != i) ++ [i], marks := s.reports[p].marks ||| Deferred.report.bit }
    else { s.reports[q] with queue := s.reports[q].queue.filter (· != i) } := by
  have ha' : (putRecord i (r.retired k s.sweep) (unlist i s)).attached p = true :=
    (((store_unlist s i).trans (store_putRecord _ i _)).attached p).trans ha
  rw [retire_owned hp, enqueueNote_report ha', putRecord_reports, unlist_report, unlist_report]

theorem retire_noted (hp : r.owner = some p) (ha : s.attached p = true) (k : EndKind) : (retire i r k s).Noted p i := by
  rw [State.Noted, retire_report hp ha, if_pos rfl]
  exact ⟨List.mem_append_right _ List.mem_cons_self, by simp [Deferred.bit]⟩

theorem noted_disposeDamaged {j : SlotIx} (h : s.Noted p i) (hij : i ≠ j) : (disposeDamaged s j).Noted p i := by
  rcases disposeDamaged_cases s j with hn | ⟨r, hr, hd, hp | ⟨q, hq, ha⟩⟩
  · rw [disposeDamaged_other hn]
    exact h
  · rw [disposeDamaged_freed hr hd hp]
    exact h
  · obtain ⟨hmem, hmark⟩ := h
    have hmem' : i ∈ s.reports[p].queue.filter (· != j) := List.mem_filter.mpr ⟨hmem, by simpa using hij⟩
    rw [disposeDamaged_retired hr hd hq ha, State.Noted, retire_report hq ha]
    split
    · next e =>
      subst e
      exact ⟨List.mem_append_left _ hmem', by rw [BitVec.getLsbD_or, hmark]; rfl⟩
    · exact ⟨hmem', hmark⟩

theorem noted_dispose {l : List SlotIx} (h : s.Noted p i) (hl : i ∉ l) : (l.foldl disposeDamaged s).Noted p i := by
  induction l generalizing s with
  | nil => exact h
  | cons j l ih =>
    obtain ⟨hij, hil⟩ := List.ne_and_not_mem_of_not_mem_cons hl
    exact ih (noted_disposeDamaged h hij) hil

end

/-! ### The lists at RESTART -/

section
variable {i : SlotIx} {r : Record} {o : Option Origin}

theorem damaged_unlisted (h : s.StoreSound) (hr : s.record i = some r) (hd : r.state = .damaged) :
    (∀ c : ChainIx, i ∉ s.chains[c].list) ∧ ∀ p : Port, i ∉ s.reports[p].queue := by
  refine ⟨fun c hi => ?_, fun p hi => ?_⟩
  · obtain ⟨r', hr', hin, -⟩ := h.chain_lists c i hi
    cases hr.symm.trans hr'
    rw [Record.inChain, hd] at hin
    simp at hin
  · obtain ⟨r', hr', hdone, -⟩ := h.queue_lists p i hi
    cases hr.symm.trans hr'
    rw [hd] at hdone
    cases hdone

theorem retire_chains (k : EndKind) (hn : ∀ c : ChainIx, i ∉ s.chains[c].list) : (retire i r k s).chains = s.chains := by
  have hu : (unlist i s).chains = s.chains := table_ext fun c => by rw [unlist_chain, remove_eq, if_neg (hn c)]
  unfold retire
  dsimp only
  split
  · rw [enqueueNote_chains, putRecord_chains, hu]
  · rw [putRecord_chains, hu]

/-- A slot joins a port's queue at RESTART. -/
def State.joins (s : State) (p : Port) (i : SlotIx) : Bool :=
  match s.record i with
  | some r => s.attached p && (r.state == .damaged) && (r.owner == some p)
  | none => false

theorem joins_iff : s.joins p i = true ↔
    s.attached p = true ∧ ∃ r : Record, s.record i = some r ∧ r.state = .damaged ∧ r.owner = some p := by
  unfold State.joins
  cases s.record i <;> simp [and_assoc]

theorem joins_congr {t : State} (hr : t.record i = s.record i) (ha : t.attached p = s.attached p) : t.joins p i = s.joins p i := by
  rw [State.joins, State.joins, hr, ha]

theorem disposeDamaged_lists (h : s.StoreSound) : (disposeDamaged s i).chains = s.chains ∧
    ∀ p : Port, (disposeDamaged s i).reports[p].queue = s.reports[p].queue ++ if s.joins p i then [i] else [] := by
  rcases disposeDamaged_cases s i with hn | ⟨r, hr, hd, hp | ⟨q, hq, ha⟩⟩
  · rw [disposeDamaged_other hn]
    refine ⟨rfl, fun p => ?_⟩
    rw [if_neg, List.append_nil]
    rintro hj
    obtain ⟨-, r, hr, hd, -⟩ := joins_iff.mp hj
    exact hn r hr hd
  · rw [disposeDamaged_freed hr hd hp]
    refine ⟨rfl, fun p => ?_⟩
    rw [if_neg, List.append_nil]
    · rfl
    · rintro hj
      obtain ⟨ha, r', hr', -, ho⟩ := joins_iff.mp hj
      cases hr.symm.trans hr'
      rw [hp p ho] at ha
      cases ha
  · obtain ⟨hchains, hqueues⟩ := damaged_unlisted h hr hd
    rw [disposeDamaged_retired hr hd hq ha]
    refine ⟨retire_chains .damaged hchains, fun p => ?_⟩
    rw [retire_report hq ha]
    split
    · next e =>
      subst e
      dsimp only
      rw [filter_ne_of_notMem (hqueues p), if_pos (joins_iff.mpr ⟨ha, r, hr, hd, hq⟩)]
    · next e =>
      dsimp only
      rw [filter_ne_of_notMem (hqueues p), if_neg, List.append_nil]
      rintro hj
      obtain ⟨-, r', hr', -, ho⟩ := joins_iff.mp hj
      cases hr.symm.trans hr'
      exact e (Option.some_inj.mp (ho.symm.trans hq))

/-- The slots that join a queue stand at its tail in the order in which they are disposed of. -/
theorem dispose_lists {l : List SlotIx} (hl : l.Nodup) (h : s.ListsAt o) : (l.foldl disposeDamaged s).chains = s.chains ∧
    ∀ p : Port, (l.foldl disposeDamaged s).reports[p].queue = s.reports[p].queue ++ l.filter (s.joins p) := by
  induction l generalizing s with
  | nil => exact ⟨rfl, fun p => (List.append_nil _).symm⟩
  | cons i l ih =>
    obtain ⟨hi, hl⟩ := List.nodup_cons.mp hl
    obtain ⟨hc, hq⟩ := disposeDamaged_lists (i := i) h.1
    obtain ⟨hc', hq'⟩ := ih hl (lists_disposeDamaged h i)
    refine ⟨hc'.trans hc, fun p => ?_⟩
    have hsame : l.filter ((disposeDamaged s i).joins p) = l.filter (s.joins p) := List.filter_congr fun j hj =>
      joins_congr (congrArg Slot.record (disposeDamaged_slot_ne fun e => hi (e ▸ hj))) ((store_disposeDamaged s i).attached p)
    rw [List.foldl_cons, hq' p, hq p, hsame, List.append_assoc, List.filter_cons]
    split <;> rfl

end

/-- Settles O34: each slot by its own disposal, around which the others leave it alone. -/
theorem restartDisposesDamaged : Obligations.RestartDisposesDamaged := by
  unfold Obligations.RestartDisposesDamaged
  intro s
  have left : ∀ i : SlotIx, (∀ r : Record, s.record i = some r → r.state ≠ .damaged) → (applyChange .restart s).slots[i] = s.slots[i] :=
    fun i hn => by
      obtain ⟨u, rest, hi, -, hslot, he⟩ := dispose_around s i
      rw [applyChange_restart, he]
      dsimp only
      rw [dispose_slot_notMem hi, disposeDamaged_other fun r hr => hn r ((congrArg Slot.record hslot).symm.trans hr), hslot]
  refine ⟨?_, fun i hr => left i fun r hr' => (by rw [hr] at hr'; cases hr'), fun i r hr => ⟨fun hd => left i fun r' hr' => ?_,
    fun hd hp => ?_, fun p hd hp ha => ?_⟩, fun hs => ?_⟩
  · have h := StoreFrame.foldl store_disposeDamaged (List.finRange 128) s
    rw [applyChange_restart]
    generalize (List.finRange 128).foldl disposeDamaged s = u at h
    rw [h]
  · cases hr.symm.trans hr'
    exact hd
  · obtain ⟨u, rest, hi, hframe, hslot, he⟩ := dispose_around s i
    have hr' : u.record i = some r := (congrArg Slot.record hslot).trans hr
    have hx : ((applyChange .restart s).slots[i] : Slot) = { gen := s.slots[i].gen + 1, record := none, codeMatches := true } := by
      rw [applyChange_restart, he]
      dsimp only
      rw [dispose_slot_notMem hi, disposeDamaged_freed hr' hd fun p ho => (hframe.attached p).trans (hp p ho), ← hslot]
      exact modAt_get_self _ i _
    exact ⟨congrArg Slot.record hx, congrArg Slot.gen hx⟩
  · obtain ⟨u, rest, hi, hframe, hslot, he⟩ := dispose_around s i
    have hr' : u.record i = some r := (congrArg Slot.record hslot).trans hr
    have hret := disposeDamaged_retired hr' hd hp ((hframe.attached p).trans ha)
    have hx : ((applyChange .restart s).slots[i] : Slot) =
        { gen := s.slots[i].gen, record := some (r.retired .damaged s.sweep), codeMatches := true } := by
      rw [applyChange_restart, he]
      dsimp only
      rw [dispose_slot_notMem hi, hret, retire_slot_self, hslot, hframe.sweep]
    have hnoted : (applyChange .restart s).Noted p i := by
      rw [applyChange_restart, he, hret]
      exact noted_dispose (retire_noted hp ((hframe.attached p).trans ha) .damaged) hi
    obtain ⟨hmem, hmark⟩ := hnoted
    exact ⟨congrArg Slot.record hx, by rw [hx], hmem, hmark⟩
  · have hlists := dispose_lists (List.nodup_finRange 128) (listsSound_iff.mp hs)
    rw [applyChange_restart]
    generalize (List.finRange 128).foldl disposeDamaged s = u at hlists
    obtain ⟨hchains, hqueues⟩ := hlists
    refine ⟨hchains, fun p => ⟨(List.finRange 128).filter (s.joins p), hqueues p, ?_, fun i => ?_⟩⟩
    · exact (List.pairwise_lt_finRange 128).filter _
    · rw [List.mem_filter, joins_iff]
      exact and_iff_right (List.mem_finRange i)

end Sys2Proof.Machine

/-! PROOF. Sweeps (05): the timer (O35), the turnover and the events that name it (O36), what it counts down (O37), and the poll phase
with the entries that fall due (O38). -/

namespace Sys2Proof.Machine

variable {s : State} {c : ChainIx} {i : SlotIx} {r : Record} {e : ResvIx} {a : Reservation} {pr : Proposal}

/-! ### The timer and the turnover (R80 to R84) -/

theorem idle_of_none (h : s.exchange = none) : s.idle = true := Option.isNone_iff_eq_none.mpr h

theorem idle_of_some (h : s.exchange ≠ none) : s.idle = false := isNone_eq_false_iff.mpr h

/-- Settles O35: by whether an exchange is in progress, and whether the timer has expired before. -/
theorem timerExpiry : Obligations.TimerExpiry := by
  unfold Obligations.TimerExpiry
  refine fun s => ⟨fun hx => if_pos (idle_of_none hx), fun hx he => ?_, fun hx he => ?_⟩
  · exact (if_neg (by simp [idle_of_some hx])).trans (if_neg (by simp [he]))
  · exact (if_neg (by simp [idle_of_some hx])).trans (if_pos he)

theorem late_iff {sweep : Word} : r.late sweep = true ↔
    r.state = .queued ∧ r.deadline ≠ 0 ∧ r.deadline < (sweep - r.postedSweep).toNat := by
  simp [Record.late, and_assoc]

theorem headLate_iff (hh : s.head c = some (i, r)) : s.headLate c = r.late s.sweep := by
  simp only [State.headLate, hh]

theorem leaseEnds_held (he : s.resvs[e] = some a) : s.leaseEnds e = decide (a.remaining ≤ 1) := by
  simp only [State.leaseEnds, he]

theorem lapses_pending (hp : s.proposal = some pr) : s.lapses = decide (pr.window ≤ 1) := by
  simp only [State.lapses, hp]

/-- A command named after a reaction of the turnover is the turnover, when the reaction takes place (logs 3, 4). -/
theorem turnover_named {reacts : Bool} (hx : s.exchange = none) (h : reacts = true) :
    (if (s.idle && reacts) = true then Host.Outcome.next (turnoverNow s) else .next s : Host.Outcome State Fault Refusal) =
      .next (turnoverNow s) :=
  if_pos (by rw [idle_of_none hx, h]; rfl)

/-- Settles O36: the turnover as the composition of its parts, and each command by the reaction it names. -/
theorem turnoverEvent_parts : Obligations.TurnoverEvent := by
  unfold Obligations.TurnoverEvent
  refine ⟨fun s => ⟨rfl, ?_⟩, fun s hx => ⟨if_pos (idle_of_none hx), fun c i r hh hq hd hl => ?_, fun e a he ha => ?_,
    fun pr hp hw => ?_, fun i b hb hp hdue => ?_⟩⟩
  · rw [turnoverNow, turnoverEvent, turnoverReactions_eq]
  · have hh' : (advanceSweep s).head c = some (i, r) := hh
    exact turnover_named hx ((headLate_iff hh').trans (late_iff.mpr ⟨hq, hd, hl⟩))
  · exact turnover_named hx ((leaseEnds_held he).trans (decide_eq_true ha))
  · exact turnover_named hx ((lapses_pending hp).trans (decide_eq_true hw))
  · have hdue' : (advanceSweep s).pollDue i = true := pollDue_iff.mpr ⟨b, hb, hp, hdue⟩
    exact turnover_named hx hdue'

/-! ### What a turnover counts (R34, R121, R150) -/

theorem checkDeadline_late (hh : s.head c = some (i, r)) (hl : r.late s.sweep = true) : checkDeadline s c = haltHead c i r .expired s := by
  simp only [checkDeadline, hh, hl, if_true]

theorem checkDeadline_intime (hh : s.head c = some (i, r)) (hl : r.late s.sweep = false) : checkDeadline s c = s := by
  simp only [checkDeadline, hh, hl]
  rfl

theorem lowerLease_free (he : s.resvs[e] = none) : lowerLease s e = s := by
  simp only [lowerLease, he]

theorem lowerLease_runs (he : s.resvs[e] = some a) (ha : 1 < a.remaining) :
    lowerLease s e = { s with resvs := modAt s.resvs e fun _ => some { a with remaining := a.remaining - 1 } } := by
  simp only [lowerLease, he, if_neg (Nat.not_le.mpr ha)]

theorem lowerLease_ends (he : s.resvs[e] = some a) (ha : a.remaining ≤ 1) :
    lowerLease s e = raise .lease a.owner { s with resvs := modAt s.resvs e fun _ => none } := by
  simp only [lowerLease, he, if_pos ha]

theorem lowerWindow_none (hp : s.proposal = none) : lowerWindow s = s := by
  simp only [lowerWindow, hp]

theorem lowerWindow_runs (hp : s.proposal = some pr) (hw : 1 < pr.window) :
    lowerWindow s = { s with proposal := some { pr with window := pr.window - 1 } } := by
  simp only [lowerWindow, hp, if_neg (show ¬ pr.window - 1 = 0 by omega)]

theorem lowerWindow_lapses (hp : s.proposal = some pr) (hw : pr.window = 1) :
    lowerWindow s = decideProposal { pr with window := 0 } .lapsed s := by
  simp only [lowerWindow, hp, hw]
  rfl

/-- Settles O37: each count by its own reaction. -/
theorem turnoverCounts : Obligations.TurnoverCounts := by
  unfold Obligations.TurnoverCounts
  refine ⟨fun c i r s hh => ⟨fun hq hd hl => ?_, fun hn => ?_⟩, fun e s => ⟨lowerLease_free, fun a he =>
    ⟨lowerLease_runs he, fun ha => lowerLease_ends he (le_of_eq ha)⟩⟩, fun s => ⟨lowerWindow_none, fun pr hp =>
    ⟨lowerWindow_runs hp, lowerWindow_lapses hp⟩⟩⟩
  · exact checkDeadline_late hh (late_iff.mpr ⟨hq, hd, hl⟩)
  · refine checkDeadline_intime hh (Bool.eq_false_iff.mpr fun hl => ?_)
    obtain ⟨hq, hd, hl⟩ := late_iff.mp hl
    rcases hn with hn | hn | hn
    · exact hn hq
    · exact hd hn
    · exact absurd hl (Nat.not_lt.mpr hn)

/-! ### The poll phase (R87, R88, R98, R101) -/

section
variable {i : PollIx} {b : PollBody} {gone rest : List PollIx}

/-- The skip of an entry with a target of the Target Table (R101). -/
theorem skips_iff {n : Fin 63} (hb : s.polls[i].body = some b) (ht : b.target.toNat = n.val + 1) : s.skips i = true ↔
    s.targets[n].presence = .silent ∧ ∃ last : Word, s.targets[n].lastSweep = some last ∧ (s.sweep - last).toNat < 16 := by
  have hn : targetIx b.target = some n := targetIx_iff.mpr ht
  simp only [State.skips, hb, hn, Bool.and_eq_true, beq_iff_eq]
  refine and_congr_right fun _ => ?_
  cases s.targets[n].lastSweep with
  | none => exact ⟨nofun, fun ⟨_, h, _⟩ => nomatch h⟩
  | some last => exact ⟨fun h => ⟨last, rfl, of_decide_eq_true h⟩, fun ⟨_, h, hl⟩ => by cases h; exact decide_eq_true hl⟩

theorem phaseTest_ends (h : s.phase = .poll ∧ s.exchange = none ∧ (s.pollPending = [] ∨ s.pollWindow ≤ s.pollsRun)) :
    phaseTest s = { s with phase := .chain } := by
  obtain ⟨hp, hx, hl⟩ := h
  exact if_pos ⟨hp, idle_of_none hx, hl⟩

theorem phaseTest_stays (h : ¬ (s.phase = .poll ∧ s.exchange = none ∧ (s.pollPending = [] ∨ s.pollWindow ≤ s.pollsRun))) :
    phaseTest s = s := if_neg fun ⟨hp, hi, hl⟩ => h ⟨hp, Option.isNone_iff_eq_none.mp hi, hl⟩

/-- Polls are left: the phase goes on. -/
theorem phaseTest_left (h : s.pollsLeft) : phaseTest s = s := phaseTest_stays fun ⟨_, _, hl⟩ =>
  hl.elim h.2.1 (Nat.not_le.mpr h.2.2)

theorem phaseTest_idem (s : State) : phaseTest (phaseTest s) = phaseTest s := by
  by_cases h : s.phase = .poll ∧ s.exchange = none ∧ (s.pollPending = [] ∨ s.pollWindow ≤ s.pollsRun)
  · rw [phaseTest_ends h]
    exact phaseTest_of_chain rfl
  · rw [phaseTest_stays h, phaseTest_stays h]

theorem offerBus_phaseTest (s : State) : offerBus (phaseTest s) = offerBus s := by
  rw [offerBus_eq, offerBus_eq, phaseTest_idem, phaseTest_mayOffer]

/-- An offer in the poll phase with polls left goes past the skips (R87). -/
theorem offerBus_polls (hm : s.mayOffer = true) (h : s.pollsLeft) : offerBus s = offerPolls s := by
  rw [offerBus_eq, phaseTest_left h, if_pos hm, if_pos h.1]

theorem skipSilent_gone (hq : s.pollPending = gone) (hg : ∀ i ∈ gone, s.skips i = true) : skipSilent s = { s with pollPending := [] } := by
  rw [skipSilent, hq, List.dropWhile_eq_nil_iff.mpr hg]

theorem skipSilent_front (hq : s.pollPending = gone ++ i :: rest) (hg : ∀ i ∈ gone, s.skips i = true) (hi : s.skips i = false) :
    skipSilent s = { s with pollPending := i :: rest } := by
  rw [skipSilent, hq, List.dropWhile_append_of_pos hg, List.dropWhile_cons_of_neg (by simp [hi])]

/-- Nothing but skipped entries is pending: the phase ends and the bus is offered on (R88). -/
theorem offerBus_gone (hm : s.mayOffer = true) (hp : s.phase = .poll) (hw : s.pollsRun < s.pollWindow)
    (hg : ∀ i ∈ gone, s.skips i = true) (hq : s.pollPending = gone) :
    offerBus s = offerBus { s with pollPending := [], phase := .chain } := by
  have hx := mayOffer_idle hm
  cases gone with
  | nil =>
    rw [← offerBus_phaseTest, phaseTest_ends ⟨hp, hx, .inl hq⟩, ← hq]
  | cons j rest =>
    have hempty : phaseTest { s with pollPending := [] } = { s with pollPending := [], phase := .chain } :=
      phaseTest_ends ⟨hp, hx, .inl rfl⟩
    rw [offerBus_polls hm ⟨hp, by rw [hq]; simp, hw⟩, offerPolls, skipSilent_gone hq hg, hempty, if_neg nofun]
    exact (offerBus_of_chain rfl).symm

/-- The first entry that is not skipped is polled (R87, R100). -/
theorem offerBus_poll (hm : s.mayOffer = true) (hp : s.phase = .poll) (hw : s.pollsRun < s.pollWindow)
    (hg : ∀ i ∈ gone, s.skips i = true) (hq : s.pollPending = gone ++ i :: rest) (hi : s.skips i = false)
    (hb : s.polls[i].body = some b) : offerBus s =
      { s with pollPending := rest, pollsRun := s.pollsRun + 1, exchange := some (pollExchange i s.polls[i].edit b) } := by
  have hleft : State.pollsLeft { s with pollPending := i :: rest } := ⟨hp, List.cons_ne_nil _ _, hw⟩
  have hstart : startPoll { s with pollPending := i :: rest } =
      { s with pollPending := rest, pollsRun := s.pollsRun + 1, exchange := some (pollExchange i s.polls[i].edit b) } := by
    simp only [startPoll, hb]
    rfl
  rw [offerBus_polls hm ⟨hp, by rw [hq]; simp, hw⟩, offerPolls, skipSilent_front hq hg hi, phaseTest_left hleft, if_pos hp, hstart]

/-- An in-use entry after a turnover, by whether it was due while pending (R98). -/
theorem pollTurnover_body (hb : s.polls[i].body = some b) : ∃ m : Nat,
    (pollTurnover s).polls[i].body = some { b with missed := m, snap := { b.snap with age := min 255 (b.snap.age + 1) } } ∧
      (s.pollDue i = true → i ∈ s.pollPending → m = min 255 (b.missed + 1)) ∧
      (¬ s.pollDue i = true ∨ i ∉ s.pollPending → m = b.missed) := by
  have hdue : s.pollDue i = b.due s.sweep := by simp only [State.pollDue, hb]
  refine ⟨if b.due s.sweep && s.pollPending.contains i then satInc 255 b.missed else b.missed, ?_, fun hd hi => ?_, fun hn => ?_⟩
  · rw [pollTurnover_poll, hb]
    rfl
  · exact if_pos (by rw [← hdue, hd, List.contains_iff_mem.mpr hi]; rfl)
  · refine if_neg fun hboth => ?_
    obtain ⟨hd, hi⟩ := Bool.and_eq_true_iff.mp hboth
    exact hn.elim (fun hn => hn (hdue.trans hd)) fun hn => hn (List.contains_iff_mem.mp hi)

end

/-- Settles O38: the skips, the end of the poll phase, an offer in it, and the entries that fall due. -/
theorem pollsFallDue : Obligations.PollsFallDue := by
  unfold Obligations.PollsFallDue
  refine ⟨fun i b n s => skips_iff, fun s => ⟨phaseTest_ends, phaseTest_stays, (offerBus_phaseTest s).symm⟩,
    fun gone s hm hp hw hg => ⟨offerBus_gone hm hp hw hg, fun i rest b hq hi hb => ?_⟩, fun s => ⟨pollTurnover_frame, ?_, fun i =>
    ⟨?_, fun hb => ?_, fun b hb => ?_⟩⟩⟩
  · exact ⟨_, offerBus_poll hm hp hw hg hq hi hb, rfl, rfl, rfl, rfl, rfl, rfl, rfl, rfl, rfl, rfl, rfl, rfl⟩
  · refine ⟨_, pollTurnover_pollPending, (List.pairwise_lt_finRange 48).filter _, fun i => ?_⟩
    rw [List.mem_filter, Bool.and_eq_true, pollDue_iff, Bool.not_eq_true', ← Bool.not_eq_true, List.contains_iff_mem]
    exact and_iff_right (List.mem_finRange i)
  · rw [pollTurnover_poll]
  · rw [pollTurnover_poll, hb]; rfl
  · obtain ⟨m, hbody, hmiss, hkeep⟩ := pollTurnover_body hb
    rw [pollDue_iff] at hmiss hkeep
    exact ⟨m, hbody, hmiss, hkeep⟩

end Sys2Proof.Machine

/-! PROOF. Tries (02, 04): the try start (O40), how a try ends with its record kept (O45) or completed or cancelled (O46), the Target
Table's update (O43), and how the end of an exchange hands its outcome on (O48). -/

namespace Sys2Proof.Machine

variable {s : State} {c : ChainIx} {i : SlotIx} {r : Record} {e : Exchange} {o : Outcome} {res : Result} {words : List Word}

/-! ### The try start (R26) -/

theorem parityOf_entry {n : Fin 63} {t : BitVec 6} (h : t.toNat = n.val + 1) : s.parityOf t = s.targets[n].parity := by
  simp only [State.parityOf, targetIx_iff.mpr h]

section
variable (hh : s.head c = some (i, r))
include hh

theorem tryStart_mismatch (hm : s.slots[i].codeMatches = false) : tryStart c s = storeFault (damageSlot i s) := by
  simp only [tryStart, hh]
  exact if_pos (by rw [hm]; rfl)

variable (hm : s.slots[i].codeMatches = true)
include hm

theorem tryStart_verified : tryStart c s =
    if s.fenced (chainPort c) r.kind r.target then endGrant (haltHead c i r .fenced s)
    else startExchange (recordExchange s i r) (putRecord i { r with state := .active } s) := by
  simp only [tryStart, hh]
  exact if_neg (by rw [hm]; simp)

theorem tryStart_fenced (hf : s.fenced (chainPort c) r.kind r.target = true) : tryStart c s = endGrant (haltHead c i r .fenced s) := by
  rw [tryStart_verified hh hm, if_pos hf]

theorem tryStart_started (hf : s.fenced (chainPort c) r.kind r.target = false) :
    tryStart c s = startExchange (recordExchange s i r) (putRecord i { r with state := .active } s) := by
  rw [tryStart_verified hh hm, if_neg (by simp [hf])]

end

/-- A record's first exchange at its start, whatever its kind (R47). -/
theorem recordExchange_start (s : State) (i : SlotIx) (r : Record) :
    (recordExchange s i r).stage = .preamble ∧ (recordExchange s i r).count = 0 ∧ (recordExchange s i r).replyStart = false ∧
      (recordExchange s i r).held = none ∧ (recordExchange s i r).span.register = r.span.register := by
  unfold recordExchange
  cases r.kind <;> exact ⟨rfl, rfl, rfl, rfl, rfl⟩

theorem recordExchange_read (h : r.kind = .read) :
    recordExchange s i r = newExchange (.record i s.slots[i].gen) .single .read r.target r.span false [] none := by
  simp only [recordExchange, h]

theorem recordExchange_write (h : r.kind = .write) : recordExchange s i r =
    newExchange (.record i s.slots[i].gen) .single .write r.target r.span (s.parityOf r.target) r.data none := by
  simp only [recordExchange, h]

theorem recordExchange_modify (h : r.kind = .modify) : recordExchange s i r =
    newExchange (.record i s.slots[i].gen) .modifyRead .read r.target { r.span with countM1 := 0 } false [] none := by
  simp only [recordExchange, h]

theorem recordExchange_broadcast (h : r.kind = .broadcast) : recordExchange s i r =
    newExchange (.record i s.slots[i].gen) .broadcast .write 0 r.span false r.data none := by
  simp only [recordExchange, h]

/-- Settles O40: by the check code and the fence, then the exchange by the record's kind. -/
theorem tryStartByChecks : Obligations.TryStartByChecks := by
  unfold Obligations.TryStartByChecks
  refine ⟨fun n t s => parityOf_entry, fun c i r s hh => ⟨tryStart_mismatch hh, tryStart_fenced hh, fun hm hf => ?_⟩⟩
  obtain ⟨hstage, hcount, hstart, hheld, hreg⟩ := recordExchange_start s i r
  refine ⟨recordExchange s i r, tryStart_started hh hm hf, recordExchange_origin s i r, hstage, hcount, hstart, hheld, hreg, ?_⟩
  cases hk : r.kind with
  | read => rw [recordExchange_read hk]; exact ⟨rfl, rfl, rfl, rfl, rfl, rfl⟩
  | write => rw [recordExchange_write hk]; exact ⟨rfl, rfl, rfl, rfl, rfl, rfl⟩
  | modify => rw [recordExchange_modify hk]; exact ⟨rfl, rfl, rfl, rfl, rfl, rfl⟩
  | broadcast => rw [recordExchange_broadcast hk]; exact ⟨rfl, rfl, rfl, rfl, rfl, rfl⟩

/-! ### The Target Table (R53, R58) -/

theorem after_eq (t : Target) (e : Exchange) (o : Outcome) (sweep : Word) : t.after e o sweep =
    { parity := if e.op = .write ∧ o = .done then !t.parity else t.parity
      presence := if e.replyStart then .present else if o = .noreply ∧ t.run = 3 then .silent else t.presence
      run := if e.replyStart then 0 else if o = .noreply then min 15 (t.run + 1) else t.run
      lastSweep := some sweep } := by
  have h : t.run + 1 = Config.silentRun ↔ t.run = 3 := Nat.succ_inj
  simp only [Target.after, h, satInc]

theorem updateTarget_untouched (h : o = .line ∨ e.target = 0) : updateTarget e o s = s := by
  rcases h with rfl | h
  · unfold updateTarget
    split
    · rfl
    · exact if_pos rfl
  · have hn : targetIx e.target = none := by rw [h]; rfl
    simp only [updateTarget, hn]

section
variable {t : Fin 63} (ht : e.target.toNat = t.val + 1) (ho : o ≠ .line)
include ht ho

theorem updateTarget_entry : updateTarget e o s =
    if e.replyStart = false ∧ o = .noreply ∧ s.targets[t].run = 3 then
      markAll .target { s with targets := modAt s.targets t fun en => en.after e o s.sweep }
    else { s with targets := modAt s.targets t fun en => en.after e o s.sweep } := by
  have h : s.targets[t].run + 1 = Config.silentRun ↔ s.targets[t].run = 3 := Nat.succ_inj
  simp only [updateTarget, targetIx_iff.mpr ht, if_neg ho, h, Bool.not_eq_true']

end

/-- Settles O43: the entry by R58, and the mark by its run. -/
theorem targetTableUpdate : Obligations.TargetTableUpdate := by
  unfold Obligations.TargetTableUpdate
  refine fun e o s => ⟨updateTarget_untouched, fun t ht ho => ?_⟩
  have hentry : (modAt s.targets t fun en => en.after e o s.sweep) = modAt s.targets t fun _ =>
      { parity := if e.op = .write ∧ o = .done then !s.targets[t].parity else s.targets[t].parity
        presence := if e.replyStart then .present else if o = .noreply ∧ s.targets[t].run = 3 then .silent else s.targets[t].presence
        run := if e.replyStart then 0 else if o = .noreply then min 15 (s.targets[t].run + 1) else s.targets[t].run
        lastSweep := some s.sweep } := modAt_congr (after_eq _ e o s.sweep)
  have hx := updateTarget_entry (s := s) ht ho
  rw [hentry] at hx
  exact ⟨fun h => hx.trans (if_pos h), fun h => hx.trans (if_neg h)⟩

/-! ### The end of a try without a cancel pending (R27, R64 to R67) -/

section
variable (hc : r.cancelPending = false)
include hc

theorem applyTryEnd_wait : applyTryEnd i r (.outcome .wait) res s = requeueHead i (r.afterTry (.outcome .wait)) s := by
  simp only [applyTryEnd, hc]
  rfl

theorem applyTryEnd_line : applyTryEnd i r (.outcome .line) res s = requeueHead i (r.afterTry (.outcome .line)) s := by
  simp only [applyTryEnd, hc]
  rfl

theorem applyTryEnd_refused : applyTryEnd i r (.outcome .refused) res s = haltAfterTry i (r.afterTry (.outcome .refused)) .refused s := by
  simp only [applyTryEnd, hc]
  rfl

theorem applyTryEnd_overlong :
    applyTryEnd i r (.outcome .overlong) res s = haltAfterTry i (r.afterTry (.outcome .overlong)) .overlong s := by
  simp only [applyTryEnd, hc]
  rfl

theorem applyTryEnd_failed (ho : o = .noreply ∨ o = .corrupt) :
    applyTryEnd i r (.outcome o) res s = spendBudget i (r.afterTry (.outcome o)) s := by
  rcases ho with rfl | rfl <;> simp only [applyTryEnd, hc] <;> rfl

end

/-- Attempts and last outcome after a counted try end (R64, R65). -/
theorem afterTry_counted (ho : o ≠ .line) :
    r.afterTry (.outcome o) = { r with attempts := min 255 (r.attempts + 1), lastOutcome := .known o } := by
  cases o with
  | line => exact absurd rfl ho
  | _ => rfl

theorem spendBudget_none (h : r.budget = 0) : spendBudget i r s = requeueHead i r s := if_pos h

theorem spendBudget_left (h : r.budget ≠ 0) (hl : 1 < r.budgetLeft) :
    spendBudget i r s = requeueHead i { r with budgetLeft := r.budgetLeft - 1 } s :=
  (if_neg h).trans (if_neg (show ¬ r.budgetLeft - 1 = 0 by omega))

theorem spendBudget_last (h : r.budget ≠ 0) (hl : r.budgetLeft = 1) :
    spendBudget i r s = haltAfterTry i { r with budgetLeft := 0 } .exhausted s := by
  rw [spendBudget, if_neg h, hl]
  rfl

/-- Settles O45: by the outcome, and for a counted failure by the budget. -/
theorem tryEndsThatKeepTheHead : Obligations.TryEndsThatKeepTheHead := by
  unfold Obligations.TryEndsThatKeepTheHead
  refine fun i r res s hc => ⟨applyTryEnd_wait hc, applyTryEnd_line hc, applyTryEnd_refused hc, applyTryEnd_overlong hc, rfl, rfl,
    fun o ho => ?_⟩
  have hx := applyTryEnd_failed (i := i) (res := res) (s := s) hc ho
  rw [afterTry_counted (by rcases ho with rfl | rfl <;> decide)] at hx
  exact ⟨fun hb => hx.trans (spendBudget_none hb), fun hb hl => hx.trans (spendBudget_left hb hl),
    fun hb hl => hx.trans (spendBudget_last hb hl)⟩

/-! ### Completions and cancels (R16, R19, R30) -/

/-- The record that a completing outcome leaves, before it leaves its chain. -/
def Record.ended (r : Record) (o : Outcome) (res : Result) : Record := (r.afterTry (.outcome o)).completed res

theorem ended_eq (ho : o = .done ∨ o = .short) : r.ended o res =
    { r with
      attempts := min 255 (r.attempts + 1), lastOutcome := .known o, result := res
      cancelLate := r.cancelLate || r.cancelPending } := by
  rcases ho with rfl | rfl <;> rfl

theorem ended_uncancelled (ho : o = .done ∨ o = .short) (hc : r.cancelPending = false) :
    r.ended o res = { r with attempts := min 255 (r.attempts + 1), lastOutcome := .known o, result := res } := by
  rw [ended_eq ho, hc, Bool.or_false]

theorem applyTryEnd_completes (ho : o = .done ∨ o = .short) : applyTryEnd i r (.outcome o) res s =
    burstContinue r.home (skipGroup (r.ended o res) o (leaveCompleted i (r.ended o res) o s)) := by
  rcases ho with rfl | rfl <;> rfl

theorem skipGroup_skips (h : o = .short ∧ r.stopShort = true ∧ r.groupEnd = false) :
    skipGroup r o s = retireAll .skipped (s.groupRest s.chains[r.home].list) s := if_pos (by simp [h])

theorem skipGroup_else (h : ¬ (o = .short ∧ r.stopShort = true ∧ r.groupEnd = false)) : skipGroup r o s = s :=
  if_neg fun ⟨ho, hs, hg⟩ => h ⟨ho, hs, by simpa using hg⟩

theorem leaveCompleted_freed (hn : r.note = false) (hl : r.cancelLate = false) :
    leaveCompleted i r .done s = freeSlot i (unlist i s) := if_pos (by simp [hn, hl])

theorem leaveCompleted_retired (h : o = .done → r.note = true ∨ r.cancelLate = true) :
    leaveCompleted i r o s = retire i r .completed s := if_neg fun ⟨ho, hn, hl⟩ => by
  rcases h ho with h | h <;> simp [h] at hn hl

theorem groupRest_cons (hr : s.record i = some r) (rest : List SlotIx) :
    s.groupRest (i :: rest) = if r.groupEnd then [i] else i :: s.groupRest rest := by
  simp only [State.groupRest, hr]

/-- Without a GROUP-END the rest of the chain goes. -/
theorem groupRest_append (before behind : List SlotIx) (h : ∀ j ∈ before, ∀ r : Record, s.record j = some r → r.groupEnd = false) :
    s.groupRest (before ++ behind) = before ++ s.groupRest behind := by
  induction before with
  | nil => rfl
  | cons j before ih =>
    have ih := ih fun k hk => h k (List.mem_cons_of_mem j hk)
    cases hr : s.record j with
    | none => rw [List.cons_append, List.cons_append, ← ih, State.groupRest, hr]
    | some r =>
      rw [List.cons_append, groupRest_cons hr, h j List.mem_cons_self r hr, ih]
      rfl

section
variable (hc : r.cancelPending = true)
include hc

theorem applyTryEnd_cancelled (ho : o ≠ .done ∧ o ≠ .short) :
    applyTryEnd i r (.outcome o) res s = endGrant (retire i (r.afterTry (.outcome o)) .cancelled s) := by
  cases o with
  | done => exact absurd rfl ho.1
  | short => exact absurd rfl ho.2
  | _ => simp only [applyTryEnd, hc, if_true]

end

/-- Settles O46: completions by NOTE, cancel-late and the group, every other end under a cancel as a retirement. -/
theorem completionsAndCancels : Obligations.CompletionsAndCancels := by
  unfold Obligations.CompletionsAndCancels
  refine ⟨fun r o s => ⟨skipGroup_skips, skipGroup_else⟩, fun i r res s hc => ⟨fun o ho => ?_, fun o ho => ?_, ?_, rfl⟩,
    fun before s h => ⟨?_, fun i r behind hr hg => ?_⟩, fun i r res s hc hl => ⟨fun hn => ?_, fun hn => ?_, fun hg => ?_, fun hs hg => ?_⟩⟩
  · have hend : r.ended o res = { r with
        attempts := min 255 (r.attempts + 1), lastOutcome := .known o, result := res, cancelLate := true } := by
      rw [ended_eq ho, hc, Bool.or_true]
    rw [applyTryEnd_completes ho, hend, leaveCompleted_retired fun _ => .inr rfl]
  · have hne : o ≠ .done ∧ o ≠ .short ∧ o ≠ .line := by rcases ho with rfl | rfl | rfl | rfl | rfl <;> decide
    rw [applyTryEnd_cancelled hc ⟨hne.1, hne.2.1⟩, afterTry_counted hne.2.2]
    rfl
  · exact applyTryEnd_cancelled hc (by decide)
  · simpa [State.groupRest] using groupRest_append before [] h
  · rw [groupRest_append before _ h, groupRest_cons hr, if_pos hg]
  · rw [applyTryEnd_completes (.inl rfl), skipGroup_else (by simp), leaveCompleted_freed (r := r.ended .done res) hn]
    exact (congrArg (· || r.cancelPending) hl).trans hc
  · rw [applyTryEnd_completes (.inl rfl), skipGroup_else (by simp), leaveCompleted_retired (r := r.ended .done res) fun _ => .inl hn,
      ended_uncancelled (.inl rfl) hc]
  · have hstay : ¬ (Outcome.short = .short ∧ (r.ended .short res).stopShort = true ∧ (r.ended .short res).groupEnd = false) := by
      rintro ⟨-, hs, hg'⟩
      rcases hg with hg | hg
      · exact Bool.false_ne_true (hg.symm.trans hs)
      · exact Bool.false_ne_true (hg'.symm.trans hg)
    rw [applyTryEnd_completes (.inr rfl), skipGroup_else hstay, leaveCompleted_retired (o := .short) (fun h => nomatch h),
      ended_uncancelled (.inr rfl) hc]
  · have hskip : Outcome.short = .short ∧ (r.ended .short res).stopShort = true ∧ (r.ended .short res).groupEnd = false := ⟨rfl, hs, hg⟩
    rw [applyTryEnd_completes (.inr rfl), skipGroup_skips hskip, leaveCompleted_retired (o := .short) (fun h => nomatch h),
      ended_uncancelled (.inr rfl) hc]
    rfl

/-! ### The end of an exchange (R54 to R56, R82) -/

theorem drained_eq (s : State) :
    drained s = { s with sched := if s.sched = .draining ∧ s.exchange = none then .stopped else s.sched } := by
  have hidle : s.idle = true ↔ s.exchange = none := Option.isNone_iff_eq_none
  unfold drained
  simp only [hidle]
  split <;> rfl

/-- What an exchange's end makes of the state before a turnover or an offer (R54, R156). -/
def handedOn (e : Exchange) (o : Outcome) (words : List Word) (s : State) : State :=
  drained (handOff e o words (updateTarget e o { clearMarks s with exchange := none }))

theorem endExchange_turnover (he : (handedOn e o words s).expired = true) (hx : (handedOn e o words s).exchange = none) :
    endExchange e o words s = offerBus (lowerWindow ((List.finRange 8).foldl lowerLease
      ((List.finRange 16).foldl checkDeadline (pollTurnover (pendMarks s.marks (advanceSweep (handedOn e o words s))))))) := by
  have h : endExchange e o words s = turnoverEvent s.marks (handedOn e o words s) :=
    if_pos (by rw [← handedOn, he, idle_of_none hx]; rfl)
  rw [h, turnoverEvent, turnoverReactions_eq]

theorem endExchange_offer (h : (handedOn e o words s).expired = false ∨ (handedOn e o words s).exchange ≠ none) :
    endExchange e o words s = offerBus { handedOn e o words s with
      reports := tab fun p => { (handedOn e o words s).reports[p] with
        marks := (handedOn e o words s).reports[p].marks ||| s.reports[p].marks } } := by
  have hn : endExchange e o words s = offerBus (restoreMarks s.marks (handedOn e o words s)) := by
    refine if_neg fun hb => ?_
    obtain ⟨he, hi⟩ := Bool.and_eq_true_iff.mp hb
    rcases h with h | h
    · exact Bool.false_ne_true (h.symm.trans he)
    · exact Bool.false_ne_true ((idle_of_some h).symm.trans hi)
  rw [hn, restoreMarks]
  simp only [marks_get]

theorem resultOf_read (hp : e.phase = .single) (hop : e.op = .read) (ho : o = .done ∨ o = .short) : resultOf e o words = .words words := by
  rcases ho with rfl | rfl <;> simp only [resultOf, hp, hop]

theorem resultOf_written (hp : e.phase = .modifyWrite) : resultOf e .done words = .pair (e.oldValue.getD 0) (e.send.headD 0) := by
  simp only [resultOf, hp]

theorem resultOf_absent (hr : ¬ (e.phase = .single ∧ e.op = .read ∧ (o = .done ∨ o = .short)))
    (hw : ¬ (e.phase = .modifyWrite ∧ o = .done)) : resultOf e o words = .absent := by
  unfold resultOf
  split
  · next hp hop => exact absurd ⟨hp, hop, .inl rfl⟩ hr
  · next hp hop => exact absurd ⟨hp, hop, .inr rfl⟩ hr
  · next hp => exact absurd ⟨hp, rfl⟩ hw
  · rfl

theorem modified_eq {andMask orValue : Word} (h : r.data = [andMask, orValue]) (old : Word) :
    r.modified old = (old &&& andMask) ||| orValue := by
  rw [Record.modified, h]
  rfl

section
variable {old : Word}

theorem midPoint_cancelled (h : r.cancelPending = true) : midPoint e i r old s = applyTryEnd i r .midCancel .absent s := if_pos h

variable (hc : r.cancelPending = false)
include hc

theorem midPoint_faulted (h : s.sched = .faulted) : midPoint e i r old s = applyTryEnd i r .midFault .absent s :=
  (if_neg (by simp [hc])).trans (if_pos h)

variable (hs : s.sched ≠ .faulted)
include hs

theorem midPoint_fenced (h : s.fenced (chainPort r.home) r.kind r.target = true) :
    midPoint e i r old s = applyTryEnd i r .midFence .absent s := ((if_neg (by simp [hc])).trans (if_neg hs)).trans (if_pos h)

theorem midPoint_writes (h : s.fenced (chainPort r.home) r.kind r.target = false) :
    midPoint e i r old s = startExchange (writePhase s e r old) s :=
  ((if_neg (by simp [hc])).trans (if_neg hs)).trans (if_neg (by simp [h]))

end

section
variable {g : Byte}

theorem recordOutcome_free (h : s.record i = none) : recordOutcome e i g o words s = s := by
  simp only [recordOutcome, h]

variable (hr : s.record i = some r)
include hr

theorem recordOutcome_stale (hg : s.slots[i].gen ≠ g) : recordOutcome e i g o words s = s := by
  simp only [recordOutcome, hr]
  exact if_pos hg

variable (hg : s.slots[i].gen = g)
include hg

theorem recordOutcome_other (h : r.state = .queued ∨ r.state = .halted ∨ r.state = .done ∨ r.state = .damaged) :
    recordOutcome e i g o words s = s := by
  simp only [recordOutcome, hr]
  refine (if_neg (not_not.mpr hg)).trans ?_
  rcases h with h | h | h | h <;> rw [h]

theorem recordOutcome_orphaned (h : r.state = .orphaned) : recordOutcome e i g o words s = freeSlot i s := by
  simp only [recordOutcome, hr]
  refine (if_neg (not_not.mpr hg)).trans ?_
  rw [h]

theorem recordOutcome_active (h : r.state = .active) : recordOutcome e i g o words s =
    if e.phase = .modifyRead ∧ o = .done then midPoint e i r (words.headD 0) s
    else applyTryEnd i r (.outcome o) (resultOf e o words) s := by
  simp only [recordOutcome, hr]
  refine (if_neg (not_not.mpr hg)).trans ?_
  rw [h]

end

/-- Settles O48: what follows the hand-over, the result it carries, the mid-point's tests, and the slots that take an outcome. -/
theorem outcomeHandedOn : Obligations.OutcomeHandedOn := by
  unfold Obligations.OutcomeHandedOn
  refine ⟨fun e o words s => ?_, fun e o words => ⟨fun ⟨hp, hop, ho⟩ => resultOf_read hp hop ho, fun old new ⟨hp, ho⟩ hold hnew => ?_,
    resultOf_absent⟩, fun e i r old andMask orValue s hd => ⟨midPoint_cancelled, midPoint_faulted, midPoint_fenced,
    fun hc hs hf => ⟨_, midPoint_writes hc hs hf, ?_⟩⟩, fun e i g o words s => ⟨recordOutcome_free, fun r hr =>
    ⟨recordOutcome_stale hr, recordOutcome_other hr, recordOutcome_orphaned hr, fun hg h => ⟨fun w hp ho hw => ?_, fun hn => ?_⟩⟩⟩⟩
  · have hturn := endExchange_turnover (e := e) (o := o) (words := words) (s := s)
    have hoffer := endExchange_offer (e := e) (o := o) (words := words) (s := s)
    rw [handedOn, drained_eq, handOff] at hturn hoffer
    cases he : e.origin <;> rw [he] at hturn hoffer <;> exact ⟨hturn, hoffer⟩
  · subst ho
    rw [resultOf_written hp, hold, hnew]
    rfl
  · exact ⟨rfl, rfl, rfl, rfl, rfl, rfl, rfl, by rw [writePhase, modified_eq hd]; rfl, rfl, rfl, rfl, rfl, rfl⟩
  · rw [recordOutcome_active hr hg h, if_pos ⟨hp, ho⟩, hw]
    rfl
  · rw [recordOutcome_active hr hg h, if_neg fun ⟨hp, ho⟩ => hn.elim (fun hn => hn hp) fun hn => hn ho]

end Sys2Proof.Machine

/-! PROOF. The field line (03): the line monitor (O44) and the course of an exchange (O41), event by event and bit period by bit
period. -/

namespace Sys2Proof.Machine

variable {s : State} {e : Exchange} {d : Drive} {o : Outcome}

/-! ### The line monitor (R60, R61, R162) -/

/-- The line monitor in LINE FAULT, with FAULT raised (R60, R162). -/
theorem execLineFault_ok (hl : s.line = .ok) : execLineFault s =
    match s.exchange with
    | some e => .next (endExchange e .line [] (raiseAll .fault { s with line := .fault, run := 64, releasedCount := 0 }))
    | none => .next (raiseAll .fault { s with line := .fault, run := 64, releasedCount := 0 }) := by
  unfold execLineFault
  rw [if_neg (by simp [hl])]
  rfl

theorem execLineFault_idle (hl : s.line = .ok) (hx : s.exchange = none) :
    execLineFault s = .next (raiseAll .fault { s with line := .fault, run := 64, releasedCount := 0 }) := by
  rw [execLineFault_ok hl, hx]

theorem execLineFault_busy (hl : s.line = .ok) (hx : s.exchange = some e) : execLineFault s =
    .next (endExchange e .line [] (raiseAll .fault { s with line := .fault, run := 64, releasedCount := 0 })) := by
  rw [execLineFault_ok hl, hx]

section
variable {k : State → Host.Outcome State Fault Refusal}

/-- The run of driven bit periods, as the line monitor counts it (R60). -/
theorem watched_released : watched .released k s = k { s with run := 0 } := if_neg (show ¬ 0 = Config.lineFaultBits by decide)

theorem watched_driven {b : Bool} (h : s.run < 63) : watched (.driven b) k s = k { s with run := s.run + 1 } := by
  have hr : runAfter (.driven b) s.run = s.run + 1 := Nat.min_eq_right (show s.run + 1 ≤ 64 by omega)
  have hne : ¬ s.run + 1 = Config.lineFaultBits := fun h' => by
    have : s.run + 1 = 64 := h'
    omega
  rw [watched, hr, if_neg hne]

theorem watched_full {b : Bool} (h : s.run = 63) : watched (.driven b) k s = execLineFault s := by
  rw [watched, h]
  rfl

end

/-- A bit period in LINE OK outside an exchange (R60). -/
theorem fieldBit_idle (hl : s.line = .ok) (hx : s.exchange = none) : fieldBit d s = watched d .next s := by
  simp only [fieldBit, hl, hx]

section
variable (hl : s.line = .fault)
include hl

theorem fieldBit_faultReleased : fieldBit .released s =
    if s.releasedCount + 1 = 256 then execLineOk s else .next { s with releasedCount := s.releasedCount + 1, run := 0 } := by
  simp only [fieldBit, hl]
  rfl

theorem fieldBit_faultDriven (b : Bool) :
    fieldBit (.driven b) s = .next { s with releasedCount := 0, run := min 64 (s.run + 1) } := by
  simp only [fieldBit, hl]
  rfl

end

/-- Settles O44: by the line state, and the counts by their thresholds. -/
theorem lineMonitor : Obligations.LineMonitor := by
  unfold Obligations.LineMonitor
  refine ⟨fun s => ⟨execLineFault_idle, fun e => execLineFault_busy, fun hl => if_pos hl, fun hl => if_pos hl,
    fun hl => if_neg (by simp [hl])⟩, fun s hx => ⟨fun hl => ?_, fun b hl hr => ?_, fun b hl hr => ?_, fun hl hr => ?_, fun hl hr => ?_,
    fun b hl => fieldBit_faultDriven hl b⟩⟩
  · rw [fieldBit_idle hl hx, watched_released]
  · rw [fieldBit_idle hl hx, watched_driven hr]
  · rw [fieldBit_idle hl hx, watched_full hr]
    rfl
  · rw [fieldBit_faultReleased hl, if_neg (by omega)]
  · rw [fieldBit_faultReleased hl, if_pos (by omega)]
    rfl

/-! ### The frame and the events of an exchange (R45, R48 to R51) -/

/-- The bytes of a request frame: header, span, words to send, and their CRC-16. -/
theorem frameBytes_eq (e : Exchange) : e.frameBytes =
    ((e.target ++ e.op.bit ++ BitVec.ofBool e.parity : Byte) :: wordBytes e.span.word ++ e.send.flatMap wordBytes) ++
      wordBytes (crc16 ((e.target ++ e.op.bit ++ BitVec.ofBool e.parity : Byte) :: wordBytes e.span.word ++ e.send.flatMap wordBytes)) := rfl

section
variable (hx : s.exchange = some e)
include hx

theorem modExchange_some (f : Exchange → Exchange) : modExchange f s = { s with exchange := some (f e) } := by
  rw [modExchange, hx]
  rfl

theorem inStage_eq (st : Stage) : s.inStage st = (e.stage == st) := by simp only [State.inStage, hx]

theorem inStage_at {st : Stage} (h : e.stage = st) : s.inStage st = true := by rw [inStage_eq hx, h, beq_self_eq_true]

theorem inStage_not {st : Stage} (h : e.stage ≠ st) : ¬ s.inStage st = true := by rw [inStage_eq hx, beq_iff_eq]; exact h

theorem awaitsDelimiter_iff : s.awaitsDelimiter = true ↔ e.stage = .receiving ∧ e.replyStart = false := by
  simp only [State.awaitsDelimiter, hx, Bool.and_eq_true, beq_iff_eq, Bool.not_eq_true']

theorem execPreambleEnd_at (h : e.stage = .preamble) : execPreambleEnd s =
    .next { s with exchange := some { e with stage := .sending, count := 0, tx := e.frameBits }, run := 0 } := by
  rw [execPreambleEnd, if_pos (inStage_at hx h), preambleEnd, modExchange_some hx]

theorem execPreambleEnd_not (h : e.stage ≠ .preamble) : execPreambleEnd s = .next s := by
  rw [execPreambleEnd, if_neg (inStage_not hx h)]

theorem execRequestFrameSent_at (h : e.stage = .sending) : execRequestFrameSent s =
    .next { s with
      exchange := some { e with stage := if e.phase = .broadcast then .guard else .window, count := 0, tx := [] }, run := 0 } := by
  rw [execRequestFrameSent, if_pos (inStage_at hx h), requestFrameSent, modExchange_some hx]

theorem execRequestFrameSent_not (h : e.stage ≠ .sending) : execRequestFrameSent s = .next s := by
  rw [execRequestFrameSent, if_neg (inStage_not hx h)]

theorem replyStartBit_eq :
    replyStartBit s = { s with exchange := some { e with stage := .receiving, count := 0, rx := [false] }, run := 0 } := by
  rw [replyStartBit, modExchange_some hx]

theorem execReplyStartBit_at (h : e.stage = .window) : execReplyStartBit s =
    .next { s with exchange := some { e with stage := .receiving, count := 0, rx := [false] }, run := 0 } := by
  rw [execReplyStartBit, if_pos (inStage_at hx h), replyStartBit_eq hx]

theorem execReplyStartBit_not (h : e.stage ≠ .window) : execReplyStartBit s = .next s := by
  rw [execReplyStartBit, if_neg (inStage_not hx h)]

theorem execReplyStart_at (h : e.stage = .receiving) (hr : e.replyStart = false) :
    execReplyStart s = .next { s with exchange := some { e with replyStart := true, rx := delimiter }, run := 0 } := by
  rw [execReplyStart, if_pos ((awaitsDelimiter_iff hx).mpr ⟨h, hr⟩), replyStart, modExchange_some hx]

theorem execReplyStart_not (h : e.stage ≠ .receiving ∨ e.replyStart = true) : execReplyStart s = .next s := by
  refine if_neg fun ha => ?_
  obtain ⟨hs, hr⟩ := (awaitsDelimiter_iff hx).mp ha
  exact h.elim (fun h => h hs) fun h => Bool.false_ne_true (hr.symm.trans h)

/-! A finding in RECEIVING is held, and any other changes nothing (R50). -/

theorem execHeldOutcome_found {c : HeldCause} (h : e.finds c = true) (hh : heldBy e c = some o) : execHeldOutcome c s =
    .next { s with
      exchange := some { e with
        stage := .discarding, held := some o, replyStart := e.replyStart || (c != .badDelimiter), rx := [] }
      run := 0 } := by
  have hold : e.hold c = { e with
      stage := .discarding, held := some o, replyStart := e.replyStart || (c != .badDelimiter), rx := [] } := by
    simp only [Exchange.hold, hh]
  rw [← hold, execHeldOutcome, hx]
  dsimp only
  rw [if_pos h, modExchange_some hx]

theorem execHeldOutcome_none {c : HeldCause} (h : e.finds c = false) : execHeldOutcome c s = .next s := by
  rw [execHeldOutcome, hx]
  exact if_neg (by simp [h])

end

theorem finds_iff {c : HeldCause} : e.finds c = true ↔
    e.stage = .receiving ∧ heldBy e c ≠ none ∧ ¬ (c = .badDelimiter ∧ e.replyStart = true) := by
  simp only [Exchange.finds, Bool.and_eq_true, beq_iff_eq, Option.isSome_iff_ne_none, Bool.not_eq_true', ← Bool.not_eq_true, and_assoc]

theorem finds_countByte {b : Byte} (hs : e.stage = .receiving) (hh : heldBy e (.countByte b) = some o) :
    e.finds (.countByte b) = true := finds_iff.mpr ⟨hs, by simp [hh], fun h => nomatch h.1⟩

theorem finds_not_receiving {c : HeldCause} (hs : e.stage ≠ .receiving) : e.finds c = false :=
  Bool.eq_false_iff.mpr fun h => hs (finds_iff.mp h).1

section
variable {b : Byte}

theorem heldBy_high (h : b.extractLsb' 5 3 ≠ 0) : heldBy e (.countByte b) = some .corrupt := if_pos (by simpa using h)

theorem heldBy_low (h : b.extractLsb' 5 3 = 0) :
    heldBy e (.countByte b) = if e.expected < replyCount b then some .overlong else none := if_neg (by simp [h])

theorem heldBy_above (h : b.extractLsb' 5 3 = 0) (hc : e.expected < replyCount b) : heldBy e (.countByte b) = some .overlong := by
  rw [heldBy_low h, if_pos hc]

theorem heldBy_none (h : b.extractLsb' 5 3 = 0) (hc : replyCount b ≤ e.expected) : heldBy e (.countByte b) = none := by
  rw [heldBy_low h, if_neg (Nat.not_lt.mpr hc)]

theorem execHeldOutcome_countByte (hx : s.exchange = some e) (hs : e.stage = .receiving) (hh : heldBy e (.countByte b) = some o) :
    execHeldOutcome (.countByte b) s = .next { s with
      exchange := some { e with stage := .discarding, held := some o, replyStart := true, rx := [] }, run := 0 } := by
  have hne : (HeldCause.countByte b != .badDelimiter) = true := bne_iff_ne.mpr fun h => nomatch h
  rw [execHeldOutcome_found hx (finds_countByte hs hh) hh, hne, Bool.or_true]

end

/-- A wrong delimiter comes before the reply's start (R50). -/
theorem execHeldOutcome_badDelimiter (hx : s.exchange = some e) (hs : e.stage = .receiving) (hr : e.replyStart = false) :
    execHeldOutcome .badDelimiter s = .next { s with
      exchange := some { e with stage := .discarding, held := some .corrupt, replyStart := false, rx := [] }, run := 0 } := by
  rw [execHeldOutcome_found hx (finds_iff.mpr ⟨hs, by simp [heldBy], by simp [hr]⟩) rfl, hr]
  rfl

theorem finds_started (hr : e.replyStart = true) : e.finds .badDelimiter = false :=
  Bool.eq_false_iff.mpr fun h => (finds_iff.mp h).2.2 ⟨rfl, hr⟩

/-! ### The ends of an exchange -/

section
variable {f : Exchange → Option (Exchange × Outcome × List Word)} {e' : Exchange} {words : List Word}

theorem endWith_some (hx : s.exchange = some e) (h : f e = some (e', o, words)) : endWith f s = .next (endExchange e' o words s) := by
  rw [endWith, hx, Option.bind_some, h]

end

section
variable (hx : s.exchange = some e)
include hx

theorem execReplyWindowExpiry_at (h : e.stage = .window) : execReplyWindowExpiry s = .next (endExchange e .noreply [] s) :=
  endWith_some hx (if_pos h)

theorem execBroadcastGuardEnd_at (h : e.stage = .guard) : execBroadcastGuardEnd s = .next (endExchange e .done [] s) :=
  endWith_some hx (if_pos h)

theorem execDiscardingEnd_ends (h : discardEnd e = some (e, o, [])) :
    execDiscardingEnd s = .next (endExchange e o [] { s with run := 0 }) := by
  have hb : (s.exchange.bind discardEnd).isSome = true := by rw [hx, Option.bind_some, h]; rfl
  rw [execDiscardingEnd, if_pos hb]
  exact endWith_some (s := { s with run := 0 }) hx h

end

theorem discardEnd_held (h : e.stage = .discarding) (hh : e.held = some o) : discardEnd e = some (e, o, []) := by
  simp only [discardEnd, h, hh, Option.getD_some]

theorem discardEnd_receiving (h : e.stage = .receiving) : discardEnd e = some (e, .corrupt, []) := by
  simp only [discardEnd, h]

/-! ### Bit periods in LINE OK (R48, R49, R50, R53, R60) -/

section
variable (hx : s.exchange = some e) (hl : s.line = .ok)
include hx hl

theorem fieldBit_preamble (h : e.stage = .preamble) : fieldBit d s = watched d (preambleBit d e) s := by
  simp only [fieldBit, hl, hx, h]

theorem fieldBit_sending (h : e.stage = .sending) : fieldBit d s = sendBit e s := by
  simp only [fieldBit, hl, hx, h]

theorem fieldBit_window (h : e.stage = .window) : fieldBit d s = windowBit d e s := by
  simp only [fieldBit, hl, hx, h]

theorem fieldBit_receiving (b : Bool) (h : e.stage = .receiving) : fieldBit (.driven b) s = replyBit b e s := by
  simp only [fieldBit, hl, hx, h]

theorem fieldBit_discarding (b : Bool) (h : e.stage = .discarding) : fieldBit (.driven b) s = watched (.driven b) .next s := by
  simp only [fieldBit, hl, hx, h]

theorem fieldBit_replyReleased (h : e.stage = .receiving ∨ e.stage = .discarding) : fieldBit .released s = execDiscardingEnd s := by
  rcases h with h | h <;> simp only [fieldBit, hl, hx, h]

theorem fieldBit_guard (h : e.stage = .guard) : fieldBit d s = watched d (guardBit e) s := by
  simp only [fieldBit, hl, hx, h]

theorem fieldBit_fault (b : Bool) (h : e.stage = .preamble ∨ e.stage = .discarding ∨ e.stage = .guard) (hr : s.run = 63) :
    fieldBit (.driven b) s = execLineFault s := by
  rcases h with h | h | h
  · rw [fieldBit_preamble hx hl h, watched_full hr]
  · rw [fieldBit_discarding hx hl b h, watched_full hr]
  · rw [fieldBit_guard hx hl h, watched_full hr]

end

section
variable {n : Nat} (hx : s.exchange = some e)
include hx

/-- A bit period counted in a stage, by the line monitor's run as well. -/
theorem countBit_run : countBit { s with run := n } = { s with exchange := some { e with count := e.count + 1 }, run := n } :=
  modExchange_some (s := { s with run := n }) hx _

theorem preambleBit_counts (h : e.count < 7) :
    preambleBit .released e { s with run := n } = .next { s with exchange := some { e with count := e.count + 1 }, run := n } := by
  have hne : ¬ e.count + 1 = 8 := by omega
  exact (if_neg hne).trans (congrArg _ (countBit_run hx))

theorem preambleBit_driven (b : Bool) :
    preambleBit (.driven b) e { s with run := n } = .next { s with exchange := some { e with count := 0 }, run := n } :=
  congrArg _ (modExchange_some (s := { s with run := n }) hx _)

theorem guardBit_counts (h : e.count < 23) :
    guardBit e { s with run := n } = .next { s with exchange := some { e with count := e.count + 1 }, run := n } := by
  have hne : ¬ e.count + 1 = 24 := by omega
  exact (if_neg hne).trans (congrArg _ (countBit_run hx))

theorem windowBit_counts (h : e.count < 23) :
    windowBit .released e s = .next { s with exchange := some { e with count := e.count + 1 }, run := 0 } := by
  have hne : ¬ e.count + 1 = 24 := by omega
  refine (if_neg hne).trans ?_
  rw [countBit, modExchange_some hx]

theorem sendBit_next {b next : Bool} {rest : List Bool} (h : e.tx = b :: next :: rest) :
    sendBit e s = .next { s with exchange := some { e with tx := next :: rest }, run := 0 } := by
  simp only [sendBit, h]
  rw [modExchange_some hx]

end

theorem preambleBit_ends (h : e.count = 7) : preambleBit .released e s = execPreambleEnd s := if_pos (by rw [h]; rfl)

theorem guardBit_ends (h : e.count = 23) : guardBit e s = execBroadcastGuardEnd s := if_pos (by rw [h]; rfl)

theorem windowBit_ends (h : e.count = 23) : windowBit .released e s = execReplyWindowExpiry { s with run := 0 } :=
  if_pos (by rw [h]; rfl)

theorem sendBit_last {b : Bool} (h : e.tx = [b]) : sendBit e s = execRequestFrameSent s := by
  simp only [sendBit, h]

/-- Settles O41: each event and each bit period by the stage of the exchange. -/
theorem exchangeCourse : Obligations.ExchangeCourse := by
  unfold Obligations.ExchangeCourse
  refine ⟨fun _ => rfl, fun e => by rw [frameBytes_eq]; cases e.op <;> rfl, fun e s hx => ⟨execPreambleEnd_at hx, execRequestFrameSent_at hx,
    execReplyStartBit_at hx, fun hs hr => ⟨execReplyStart_at hx hs hr, execHeldOutcome_badDelimiter hx hs hr⟩, fun b hs hb => ?_,
    fun b hs hb hc => ?_, fun b hs hb hc => ?_, fun hs hr => ⟨execReplyStart_not hx (.inr hr), execHeldOutcome_none hx (finds_started hr)⟩,
    execPreambleEnd_not hx, execRequestFrameSent_not hx, execReplyStartBit_not hx, fun hs => ⟨execReplyStart_not hx (.inl hs),
    fun c => execHeldOutcome_none hx (finds_not_receiving hs)⟩⟩, fun e s hx => ⟨execReplyWindowExpiry_at hx, execBroadcastGuardEnd_at hx,
    fun o hs hh => execDiscardingEnd_ends hx (discardEnd_held hs hh), fun hs => execDiscardingEnd_ends hx (discardEnd_receiving hs)⟩,
    fun e s hx hl => ⟨fun hs => ⟨fun hc => ?_, fun hc => ?_, fun b hr => ?_⟩, fun d hs => ⟨fun b next rest ht => ?_, fun b ht => ?_⟩,
    fun hs => ⟨fun hc => ?_, fun hc => ?_, ?_, ?_⟩, fieldBit_replyReleased hx hl, fun b hs hr => ?_, fun hs => ⟨fun hc => ?_, fun hc => ?_,
    fun b hr => ⟨fun hc => ?_, fun hc => ?_⟩⟩, fieldBit_fault hx hl⟩⟩
  · exact execHeldOutcome_countByte hx hs (heldBy_high hb)
  · exact execHeldOutcome_countByte hx hs (heldBy_above hb hc)
  · exact execHeldOutcome_none hx (Bool.eq_false_iff.mpr fun h => (finds_iff.mp h).2.1 (heldBy_none hb hc))
  · rw [fieldBit_preamble hx hl hs, watched_released, preambleBit_counts hx hc]
  · rw [fieldBit_preamble hx hl hs, watched_released, preambleBit_ends hc]; rfl
  · rw [fieldBit_preamble hx hl hs, watched_driven hr, preambleBit_driven hx]
  · rw [fieldBit_sending hx hl hs, sendBit_next hx ht]
  · rw [fieldBit_sending hx hl hs, sendBit_last ht]; rfl
  · rw [fieldBit_window hx hl hs, windowBit_counts hx hc]
  · rw [fieldBit_window hx hl hs, windowBit_ends hc]; rfl
  · rw [fieldBit_window hx hl hs]; rfl
  · rw [fieldBit_window hx hl hs, ← replyStartBit_eq hx]; rfl
  · rw [fieldBit_discarding hx hl b hs, watched_driven hr]
  · rw [fieldBit_guard hx hl hs, watched_released, guardBit_counts hx hc]
  · rw [fieldBit_guard hx hl hs, watched_released, guardBit_ends hc]; rfl
  · rw [fieldBit_guard hx hl hs, watched_driven hr, guardBit_counts hx hc]
  · rw [fieldBit_guard hx hl hs, watched_driven hr, guardBit_ends hc]; rfl

end Sys2Proof.Machine

/-! PROOF. Replies (03): the bits of a reply as they are taken, the classification of an accepted one, and the event that accepts it
(O42). -/

namespace Sys2Proof.Machine

variable {s : State} {e : Exchange} {b : Bool} {f : ReplyFrame}

/-! ### The CRC-16 and the count (R46, section 12.4) -/

theorem crc16_append (bytes : List Byte) (b : Byte) :
    crc16 (bytes ++ [b]) =
      [7, 6, 5, 4, 3, 2, 1, 0].foldl
        (fun (crc : Word) n => if crc.msb = b.getLsbD n then crc <<< 1 else (crc <<< 1) ^^^ 0x1021) (crc16 bytes) := by
  rw [crc16, crcBytes_append]
  simp only [bitsOf, List.foldl_cons, List.foldl_nil, crcBit_eq]
  rfl

theorem replyCount_eq (b : Byte) : replyCount b = b.toNat % 32 := by
  rw [replyCount, BitVec.extractLsb'_toNat, Nat.shiftRight_zero]

theorem expected_read (h : e.op = .read) : e.expected = e.span.count := by simp only [Exchange.expected, h]

theorem expected_write (h : e.op = .write) : e.expected = 0 := by simp only [Exchange.expected, h]

/-! ### The bits of a reply (R50 to R52) -/

/-- The state in which a bit of the reply has been taken. -/
def bitTaken (e : Exchange) (b : Bool) (s : State) : State := { s with exchange := some { e with rx := e.rx ++ [b] }, run := 0 }

section
variable (hx : s.exchange = some e)
include hx

/-- A driven bit in RECEIVING, by where in the reply it stands. -/
theorem replyBit_eq : replyBit b e s =
    if (e.rx ++ [b]).length ≤ 8 then
      if delimiter[(e.rx ++ [b]).length - 1]? ≠ some b then execHeldOutcome .badDelimiter s
      else if (e.rx ++ [b]).length = 8 then execReplyStart (bitTaken e b s)
      else .next (bitTaken e b s)
    else if (e.rx ++ [b]).length < 24 then .next (bitTaken e b s)
    else if (e.rx ++ [b]).length = 24 then
      if (heldBy e (.countByte (byteOfBits (((e.rx ++ [b]).drop 16).take 8)))).isSome then
        execHeldOutcome (.countByte (byteOfBits (((e.rx ++ [b]).drop 16).take 8))) (bitTaken e b s)
      else .next (bitTaken e b s)
    else if (e.rx ++ [b]).length = 24 + 16 * replyCount (byteOfBits (((e.rx ++ [b]).drop 16).take 8)) + 16 then
      execReplyFrameReceived (replyOfBits (e.rx ++ [b])) (bitTaken e b s)
    else .next (bitTaken e b s) := by
  have ht : ({ modExchange (fun x => { x with rx := e.rx ++ [b] }) s with run := 0 } : State) = bitTaken e b s := by
    rw [modExchange_some hx]
    rfl
  rw [← ht]
  rfl

theorem replyBit_mismatch (hlen : (e.rx ++ [b]).length ≤ 8) (hd : delimiter[e.rx.length]? ≠ some b) :
    replyBit b e s = execHeldOutcome .badDelimiter s := by
  rw [replyBit_eq hx, if_pos hlen, List.length_append, List.length_singleton, Nat.add_sub_cancel, if_pos hd]

theorem replyBit_delimiter (hlen : (e.rx ++ [b]).length ≤ 8) (hd : delimiter[e.rx.length]? = some b) : replyBit b e s =
    if (e.rx ++ [b]).length = 8 then execReplyStart (bitTaken e b s) else .next (bitTaken e b s) := by
  rw [replyBit_eq hx, if_pos hlen, if_neg (not_not.mpr (by simpa using hd))]

theorem replyBit_header (hlo : 8 < (e.rx ++ [b]).length) (hhi : (e.rx ++ [b]).length < 24) :
    replyBit b e s = .next (bitTaken e b s) := by
  rw [replyBit_eq hx, if_neg (Nat.not_le.mpr hlo), if_pos hhi]

theorem replyBit_count (hlen : (e.rx ++ [b]).length = 24) {c : Byte} (hc : byteOfBits (((e.rx ++ [b]).drop 16).take 8) = c) :
    replyBit b e s =
      if (heldBy e (.countByte c)).isSome then execHeldOutcome (.countByte c) (bitTaken e b s) else .next (bitTaken e b s) := by
  rw [replyBit_eq hx, if_neg (by omega), if_neg (by omega), if_pos hlen, hc]

theorem replyBit_body (hlen : 24 < (e.rx ++ [b]).length) {c : Byte} (hc : byteOfBits (((e.rx ++ [b]).drop 16).take 8) = c) :
    replyBit b e s =
      if (e.rx ++ [b]).length = 24 + 16 * replyCount c + 16 then
        execReplyFrameReceived (replyOfBits (e.rx ++ [b])) (bitTaken e b s)
      else .next (bitTaken e b s) := by
  rw [replyBit_eq hx, if_neg (by omega), if_neg (by omega), if_neg (by omega), hc]

end

theorem delimiter_at {l rest : List Bool} {x : Bool} (h : delimiter = l ++ x :: rest) : delimiter[l.length]? = some x := by
  rw [h, List.getElem?_append_right (Nat.le_refl _), Nat.sub_self]
  rfl

theorem delimiter_length {l rest : List Bool} (h : delimiter = l ++ rest) : l.length + rest.length = 8 := by
  rw [← List.length_append, ← h]
  rfl

/-- The count byte is read back from its place in the reply. -/
theorem byteOfBits_count (header count : Byte) (more : List Bool) :
    byteOfBits (((delimiter ++ bitsOf header ++ bitsOf count ++ more).drop 16).take 8) = count := byteOfBits_bitsOf count

theorem byteOfBits_header (header count : Byte) (more : List Bool) :
    byteOfBits (((delimiter ++ bitsOf header ++ bitsOf count ++ more).drop 8).take 8) = header := byteOfBits_bitsOf header

theorem length_reply (header count : Byte) (more : List Bool) :
    (delimiter ++ bitsOf header ++ bitsOf count ++ more).length = 24 + more.length := by
  simp only [List.length_append]
  rfl

theorem heldBy_isSome_iff {c : Byte} :
    (heldBy e (.countByte c)).isSome = true ↔ c.extractLsb' 5 3 ≠ 0 ∨ e.expected < replyCount c := by
  by_cases h : c.extractLsb' 5 3 = 0
  · rw [heldBy_low h]
    split
    · next hc => simp [hc]
    · next hc => simp [h, hc]
  · rw [heldBy_high h]
    exact iff_of_true rfl (.inl h)

/-- The bits of a reply frame after its count byte: its words, then its CRC-16. -/
def tailBits (f : ReplyFrame) : List Bool := (f.words.flatMap wordBytes).flatMap bitsOf ++ (wordBytes f.crc).flatMap bitsOf

theorem replyBits_eq (f : ReplyFrame) : delimiter ++ (f.header :: f.count :: f.words.flatMap wordBytes ++ wordBytes f.crc).flatMap bitsOf =
    delimiter ++ bitsOf f.header ++ bitsOf f.count ++ tailBits f := by
  simp only [tailBits, List.cons_append, List.flatMap_cons, List.flatMap_append, List.append_assoc]

theorem length_flatMap_bitsOf (bytes : List Byte) : (bytes.flatMap bitsOf).length = 8 * bytes.length := by
  induction bytes with
  | nil => rfl
  | cons b bytes ih => rw [List.flatMap_cons, List.length_append, ih, List.length_cons, bitsOf]; simp; omega

theorem tailBits_length (f : ReplyFrame) : (tailBits f).length = 16 * f.words.length + 16 := by
  rw [tailBits, List.length_append, length_flatMap_bitsOf, length_flatMap_bitsOf, flatMap_wordBytes_length, wordBytes]
  simp
  omega

theorem wordsOfBits_tailBits (f : ReplyFrame) : wordsOfBits (tailBits f) = f.words ++ [f.crc] := by
  have h := wordsOfBits_word f.crc []
  rw [List.append_nil] at h
  rw [tailBits, wordsOfBits_words, h]
  rfl

/-- The frame that the bits spell is read back from them. -/
theorem replyOfBits_frame (hw : f.words.length = replyCount f.count) :
    replyOfBits (delimiter ++ bitsOf f.header ++ bitsOf f.count ++ tailBits f) = f := by
  have htail : (delimiter ++ bitsOf f.header ++ bitsOf f.count ++ tailBits f).drop replyHeadBits = tailBits f := rfl
  unfold replyOfBits
  dsimp only
  rw [htail, byteOfBits_count, byteOfBits_header, wordsOfBits_tailBits, ← hw, List.take_left, List.drop_left]
  rfl

/-! ### The classification (R52) -/

section
variable (hg : crc16 (f.header :: f.count :: f.words.flatMap wordBytes) = f.crc) (ho : f.header.extractLsb' 2 6 = e.target)
include hg ho

/-- A frame of ours with a right CRC-16 is classified by its status. -/
theorem classify_status : classify e f =
    match (f.header.extractLsb' 0 2).toNat with
    | 0 =>
      match e.op with
      | .write => .done
      | .read => if e.phase = .modifyRead ∧ f.words.length = 0 then .corrupt else if f.words.length = e.span.count then .done else .short
    | 1 => .wait
    | 2 => .refused
    | _ => .corrupt := (if_neg (not_not.mpr hg)).trans (if_neg (not_not.mpr ho))

theorem classify_wait (h : (f.header.extractLsb' 0 2).toNat = 1) : classify e f = .wait := by
  rw [classify_status hg ho, h]
  rfl

theorem classify_refused (h : (f.header.extractLsb' 0 2).toNat = 2) : classify e f = .refused := by
  rw [classify_status hg ho, h]
  rfl

theorem classify_reserved (h : (f.header.extractLsb' 0 2).toNat = 3) : classify e f = .corrupt := by
  rw [classify_status hg ho, h]
  rfl

variable (h : (f.header.extractLsb' 0 2).toNat = 0)
include h

theorem classify_write (hop : e.op = .write) : classify e f = .done := by
  rw [classify_status hg ho, h, hop]
  rfl

theorem classify_read (hop : e.op = .read) : classify e f =
    if e.phase = .modifyRead ∧ f.words = [] then .corrupt else if f.words.length = e.span.count then .done else .short := by
  rw [classify_status hg ho, h, hop]
  simp only [List.length_eq_zero_iff]

end

/-! ### The event that accepts a reply (R51, R52) -/

theorem keptWords_eq (o : Outcome) (f : ReplyFrame) : keptWords o f = if o = .done ∨ o = .short then f.words else [] := by
  cases o <;> rfl

theorem acceptable_iff : acceptable e f = true ↔
    f.count.extractLsb' 5 3 = 0 ∧ f.words.length = replyCount f.count ∧ replyCount f.count ≤ e.expected := by
  simp [acceptable, and_assoc]

theorem execReplyFrameReceived_accepted (hx : s.exchange = some e) (hs : e.stage = .receiving) (ha : acceptable e f = true) :
    execReplyFrameReceived f s =
      .next (endExchange { e with replyStart := true } (classify e f) (keptWords (classify e f) f) { s with run := 0 }) := by
  have hr : replyReceived f e = some ({ e with replyStart := true }, classify e f, keptWords (classify e f) f) := if_pos ⟨hs, ha⟩
  have hb : (s.exchange.bind (replyReceived f)).isSome = true := by rw [hx, Option.bind_some, hr]; rfl
  rw [execReplyFrameReceived, if_pos hb]
  exact endWith_some (s := { s with run := 0 }) hx hr

/-- Settles O42: each bit by its place in the reply, each frame by its row of R52. -/
theorem replyClassified : Obligations.ReplyClassified := by
  unfold Obligations.ReplyClassified
  refine ⟨⟨rfl, crc16_append⟩, fun e b => ⟨replyCount_eq b, expected_read, expected_write⟩, fun e b s hx hl hs => ?bits, fun e f hw hm => ?rows,
    fun e f s hx hs hc hw hle => ?event⟩
  case bits =>
    have hbit : fieldBit (.driven b) s = replyBit b e s := fieldBit_receiving hx hl b hs
    rw [hbit]
    refine ⟨fun rest hd => ?_, fun rest hd hne => ?_, fun hd => ?_, fun more hm hne hlt => ?_, fun header count hb => ?_,
      fun header count more hb hne hlen => ?_, fun f hw hb => ?_⟩
    · have hlen := delimiter_length hd
      have hat := delimiter_at hd
      exact replyBit_mismatch hx (by simp at hlen ⊢; omega) (by rw [hat]; cases b <;> decide)
    · have hlen := delimiter_length hd
      have hpos := List.length_pos_iff.mpr hne
      rw [replyBit_delimiter hx (by omega) (delimiter_at (by rw [List.append_assoc] at hd; exact hd)), if_neg (by omega)]
      rfl
    · have hlen : (e.rx ++ [b]).length = 8 := by rw [hd]; rfl
      rw [replyBit_delimiter hx (by omega) (delimiter_at hd.symm), if_pos hlen]
      rfl
    · have hlen : (e.rx ++ [b]).length = 8 + more.length := by rw [hm, List.length_append]; rfl
      have hpos := List.length_pos_iff.mpr hne
      exact replyBit_header hx (by omega) (by omega)
    · have hb' : e.rx ++ [b] = delimiter ++ bitsOf header ++ bitsOf count ++ [] := by rw [hb, List.append_nil]; rfl
      have hx' := replyBit_count (b := b) hx (by rw [hb', length_reply]; rfl) (by rw [hb', byteOfBits_count])
      exact ⟨fun hf => hx'.trans (if_pos (heldBy_isSome_iff.mpr hf)), fun hf => hx'.trans (if_neg (mt heldBy_isSome_iff.mp hf))⟩
    · have hb' : e.rx ++ [b] = delimiter ++ bitsOf header ++ bitsOf count ++ more := hb
      have hlen' : (e.rx ++ [b]).length = 24 + more.length := by rw [hb', length_reply]
      have hpos := List.length_pos_iff.mpr hne
      rw [replyBit_body hx (by omega) (by rw [hb', byteOfBits_count]), if_neg (by omega)]
      rfl
    · have hb' : e.rx ++ [b] = delimiter ++ bitsOf f.header ++ bitsOf f.count ++ tailBits f := hb.trans (replyBits_eq f)
      have hlen' : (e.rx ++ [b]).length = 24 + (16 * f.words.length + 16) := by rw [hb', length_reply, tailBits_length]
      rw [replyBit_body hx (by omega) (by rw [hb', byteOfBits_count]), if_pos (by omega), hb', replyOfBits_frame hw, ← hb']
      rfl
  case rows =>
    refine ⟨fun hg => if_pos hg, fun hg ho => (if_neg (not_not.mpr hg)).trans (if_pos ho), classify_reserved, classify_wait,
      classify_refused, fun hg ho h hp hn => ?_, fun hg ho h hop hn hlen => ?_, fun hg ho h hop hp hlt => ?_, classify_write⟩
    · rw [classify_read hg ho h (hm hp), if_pos ⟨hp, hn⟩]
    · rw [classify_read hg ho h hop, if_neg hn, if_pos hlen]
    · rw [classify_read hg ho h hop, if_neg fun hb => hp hb.1, if_neg (by omega)]
  case event =>
    have h := execReplyFrameReceived_accepted hx hs (acceptable_iff.mpr ⟨hc, hw, hw ▸ hle⟩)
    rw [keptWords_eq] at h
    exact h

end Sys2Proof.Machine

/-! PROOF. Port frames (11, 12): every command that is a frame is read back from it (O49), and what a byte clocked at a port does
(O50). -/

namespace Sys2Proof.Machine

variable {s : State} {p : Port} {seq code : Byte} {body : List Byte} {c : Instr}

/-! ### Frames and commands (R165, R166, R176) -/

/-- The command that a good frame with this code, sequence and body is. -/
def Commands (code : Byte) (p : Port) (seq : Byte) (body : List Byte) (c : Instr) : Prop :=
  requestOf code p seq body = some c ∨ (requestOf code p seq body = none ∧ c = .unknown p code seq body)

theorem bodyFits_iff : bodyFits body = true ↔ body.length ≤ 60 := decide_eq_true_iff

/-- The frame that spells a command of the catalogue, and when the command can arrive. -/
theorem spells_of_requestOf (h : requestOf code p seq body = some c) :
    frameOf c = some (p, requestFrame code seq body) ∧ c.wellFormed = bodyFits body := by
  unfold requestOf at h
  split at h
  case h_34 => cases h
  all_goals
    rename_i hc
    cases h
    rw [byte_of_toNat hc]
    exact ⟨rfl, rfl⟩

theorem spells_of_commands (h : Commands code p seq body c) :
    frameOf c = some (p, requestFrame code seq body) ∧ (c.wellFormed = true ↔ body.length ≤ 60) := by
  rcases h with h | ⟨h, rfl⟩
  · obtain ⟨hf, hw⟩ := spells_of_requestOf h
    exact ⟨hf, hw ▸ bodyFits_iff⟩
  · refine ⟨rfl, ?_⟩
    rw [Instr.wellFormed, h, Option.isNone_none, Bool.and_true, bodyFits_iff]

/-- The parts of a request command are those of the frame that it is. -/
theorem commands_of_requestParts (hp : requestParts c = some (p, code, seq, body)) (hw : c.wellFormed = true) :
    Commands code p seq body c := by
  cases c
  case unknown =>
    cases hp
    rw [Instr.wellFormed, Bool.and_eq_true, Option.isNone_iff_eq_none] at hw
    exact .inr ⟨hw.2, rfl⟩
  all_goals cases hp
  all_goals exact .inl rfl

theorem requestFrame_complete (hb : body.length ≤ 60) : frameComplete (requestFrame code seq body) = true := by
  refine frameComplete_iff.mpr ⟨byte (body.length + 3), _, rfl, ?_⟩
  have hlen : (byte (body.length + 3)).toNat = body.length + 3 := byte_toNat_of_lt (by omega)
  rw [hlen, if_pos (by omega)]
  simp

theorem requestFrame_good (hb : body.length ≤ 60) : frameGood (requestFrame code seq body) = true :=
  (frameGood_iff (requestFrame_complete hb)).mpr ⟨by simp [requestFrame], _, rfl⟩

/-- A good frame is read back as its command. -/
theorem frameCommand_requestFrame (h : Commands code p seq body c) (hb : body.length ≤ 60) :
    frameCommand p (requestFrame code seq body) = some c := by
  have hlast : (body ++ [crc8 (byte (body.length + 3) :: code :: seq :: body)]).dropLast = body := List.dropLast_concat
  unfold frameCommand
  rw [if_pos (requestFrame_complete hb), if_pos (requestFrame_good hb)]
  change (match requestOf code p seq (body ++ [crc8 (byte (body.length + 3) :: code :: seq :: body)]).dropLast with
    | some i => some i
    | none => some (.unknown p code seq (body ++ [crc8 (byte (body.length + 3) :: code :: seq :: body)]).dropLast)) = some c
  rw [hlast]
  rcases h with h | ⟨h, rfl⟩ <;> rw [h]

theorem frameCommand_bad {bytes : List Byte} (hc : frameComplete bytes = true) (hg : frameGood bytes = false) :
    frameCommand p bytes = some (.frame p bytes) := (if_pos hc).trans (if_neg (by simp [hg]))

theorem frameCommand_partial {bytes : List Byte} (hc : frameComplete bytes = false) : frameCommand p bytes = none := if_neg (by simp [hc])

theorem wellFormed_frame_iff {bytes : List Byte} :
    (Instr.frame p bytes).wellFormed = true ↔ frameComplete bytes = true ∧ frameGood bytes = false := by
  rw [Instr.wellFormed, Bool.and_eq_true, Bool.not_eq_true']

/-- Settles O49: a refused frame is its own spelling, and every other command that is a frame is spelled by its parts. -/
theorem frameRoundTrip : Obligations.FrameRoundTrip := by
  unfold Obligations.FrameRoundTrip
  refine ⟨fun c p code seq body h => spells_of_commands h, fun p bytes => ⟨rfl, wellFormed_frame_iff⟩, fun c p bytes hw hf => ?_⟩
  by_cases hframe : ∃ (q : Port) (bs : List Byte), c = .frame q bs
  · obtain ⟨q, bs, rfl⟩ := hframe
    cases hf
    obtain ⟨hc, hg⟩ := wellFormed_frame_iff.mp hw
    exact frameCommand_bad hc hg
  · have hparts : frameOf c = (requestParts c).map fun x => (x.1, requestFrame x.2.1 x.2.2.1 x.2.2.2) := by
      cases c with
      | frame q bs => exact absurd ⟨q, bs, rfl⟩ hframe
      | _ => rfl
    rw [hparts, Option.map_eq_some_iff] at hf
    obtain ⟨⟨q, code, seq, body⟩, hp, he⟩ := hf
    cases he
    have hc := commands_of_requestParts hp hw
    exact frameCommand_requestFrame hc ((spells_of_commands hc).2.mp hw)

/-! ### A byte clocked at a port (R164, R167, R172) -/

theorem modAt_modAt {α : Type} {n : Nat} (v : Vector α n) (i : Fin n) (f g : α → α) :
    modAt (modAt v i f) i g = modAt v i fun a => g (f a) :=
  table_ext fun j => by
    rw [modAt_get, modAt_get, modAt_get, modAt_get, if_pos rfl]
    split <;> rfl

theorem clock_answering {q : PortIf} {a : Answer} (ht : q.txn = .answering) (ha : q.answer = some a) (b : Byte) :
    q.clock b = { q with answer := some a.next.2, sdo := some a.next.1 } := by
  simp only [PortIf.clock, ht, ha]

theorem clock_receiving {q : PortIf} (ht : q.txn = .receiving) (b : Byte) : q.clock b = { q with rx := q.rx ++ [b], sdo := some 0 } := by
  simp only [PortIf.clock, ht]

theorem clock_other {q : PortIf} (ht : q.txn = .spent ∨ q.txn = .resetHeld) (b : Byte) : q.clock b = { q with sdo := some 0 } := by
  rcases ht with ht | ht <;> simp only [PortIf.clock, ht]

section
variable {b : Byte} (hsel : s.ports[p].sel = true)
include hsel

theorem clockByte_other (ht : s.ports[p].txn = .spent ∨ s.ports[p].txn = .resetHeld) :
    clockByte p b s = .next { s with ports := modAt s.ports p fun q => { q with sdo := some 0 } } := by
  have hc : modPort p (fun q => q.clock b) s = { s with ports := modAt s.ports p fun q => { q with sdo := some 0 } } :=
    modPort_of_eq (clock_other ht b)
  have hne : s.ports[p].txn ≠ .receiving := by rcases ht with h | h <;> rw [h] <;> decide
  have hna : (modAt s.ports p fun q => { q with sdo := some 0 })[p].answered = false := by
    rw [modAt_get_self, PortIf.answered]
    rcases ht with h | h <;> rw [h] <;> rfl
  unfold clockByte
  rw [if_neg (by rw [hsel]; decide), if_neg hne, hc]
  exact if_neg (by rw [hna]; decide)

section
variable (ht : s.takes p)
include ht

theorem clockByte_receiving : clockByte p b s =
    (frameCommand p (s.ports[p].rx ++ [b])).elim
      (.next { s with ports := modAt s.ports p fun q => { q with rx := s.ports[p].rx ++ [b], sdo := some 0 } })
      fun c => exec c { s with ports := modAt s.ports p fun q => { q with rx := s.ports[p].rx ++ [b], sdo := some 0 } } := by
  have hc : modPort p (fun q => q.clock b) s =
      { s with ports := modAt s.ports p fun q => { q with rx := s.ports[p].rx ++ [b], sdo := some 0 } } :=
    modPort_of_eq (clock_receiving ht b)
  have hrx : (modAt s.ports p fun q => { q with rx := s.ports[p].rx ++ [b], sdo := some 0 })[p].rx = s.ports[p].rx ++ [b] := by
    rw [modAt_get_self]
  unfold clockByte
  rw [if_neg (by rw [hsel]; decide), if_pos (show s.ports[p].txn = .receiving from ht), hc]
  dsimp only
  rw [hrx]
  cases frameCommand p (s.ports[p].rx ++ [b]) <;> rfl

end

section
variable {a : Answer} (ht : s.ports[p].txn = .answering) (ha : s.ports[p].answer = some a)
include ht ha

/-- A byte of the response is shifted out; its last byte puts the port in SPENT (R167). -/
theorem clockByte_answering : clockByte p b s = .next { s with ports := modAt s.ports p fun _ =>
    if a.next.2.idle = 0 ∧ a.next.2.bytes = [] then
      { s.ports[p] with txn := .spent, answer := none, sdo := some a.next.1 }
    else { s.ports[p] with answer := some a.next.2, sdo := some a.next.1 } } := by
  have hc : modPort p (fun q => q.clock b) s =
      { s with ports := modAt s.ports p fun _ => { s.ports[p] with answer := some a.next.2, sdo := some a.next.1 } } :=
    modPort_of_eq (clock_answering ht ha b)
  have hans : (modAt s.ports p fun _ => { s.ports[p] with answer := some a.next.2, sdo := some a.next.1 })[p].answered = true ↔
      a.next.2.idle = 0 ∧ a.next.2.bytes = [] := by
    rw [modAt_get_self, PortIf.answered, ht]
    simp
  unfold clockByte
  rw [if_neg (by rw [hsel]; decide), if_neg (by rw [ht]; decide), hc]
  dsimp only
  by_cases h : a.next.2.idle = 0 ∧ a.next.2.bytes = []
  · rw [if_pos (hans.mpr h), if_pos h, execResponseSent, modPort, modAt_modAt]
    exact congrArg (fun q => Host.Outcome.next { s with ports := modAt s.ports p fun _ => q })
      (responseSent_answering (q := { s.ports[p] with answer := some a.next.2, sdo := some a.next.1 }) ht)
  · rw [if_neg (mt hans.mp h), if_neg h]

end

end

theorem next_idle (n : Nat) (bytes : List Byte) : ({ idle := n + 1, bytes := bytes } : Answer).next = (0, { idle := n, bytes := bytes }) := rfl

theorem next_byte (x : Byte) (rest : List Byte) : ({ idle := 0, bytes := x :: rest } : Answer).next = (x, { idle := 0, bytes := rest }) := rfl

/-- Settles O50: by the transaction state of the port, and by what is left of its response. -/
theorem lastByteTakesTheRequest : Obligations.LastByteTakesTheRequest := by
  unfold Obligations.LastByteTakesTheRequest
  refine ⟨fun p b s hsel ht => ⟨fun n bytes ha hne => ?_, fun x rest ha hne => ?_, fun x ha => ?_⟩,
    fun p b s => ⟨clockByte_other, fun hsel => if_pos (by rw [hsel]; rfl)⟩, fun p b s ht hsel => ⟨fun hc => ?_, fun c hc => ?_⟩⟩
  · rw [clockByte_answering hsel ht ha, next_idle, if_neg fun h => hne h.2]
  · rw [clockByte_answering hsel ht ha, next_byte, if_neg fun h => hne h.2]
  · rw [clockByte_answering hsel ht ha, next_byte, if_pos ⟨rfl, rfl⟩]
  · rw [clockByte_receiving hsel ht, frameCommand_partial hc]
    rfl
  · rw [clockByte_receiving hsel ht, hc]
    rfl

end Sys2Proof.Machine
